-- ==== Sys2Proof/Word.lean ====
section
/-! DEFINITION. The words of the part and the one sparse table type the state is built from. -/

namespace Sys2Proof

/-- A register or memory word: registers are 32 bits and little-endian (R657, R11). -/
abbrev Word := BitVec 32

/-- One byte of a memory, packet, frame or image. -/
abbrev Byte := BitVec 8

/-- A 64-bit word of a record, frame payload or coil context (R324, R451, R298). -/
abbrev Dword := BitVec 64

/-- A sparse table: keys strictly rising, and no entry equal to what an unlisted key reads as
(`Table.wf`). It is plain data, so two equal tables are equal lists. -/
abbrev Tbl (α : Type) := List (Nat × α)

end Sys2Proof
end

