-- ==== Sys2Proof/Syntax.lean ====
section
/-!
DEFINITION. The commands of the block: one constructor of `Instr` for each row of
spec/opcode_table.json, with the operands the step takes from outside the part. A row that names an
instant or an arrival carries what arrives; what the part already holds is read from the state.
-/

namespace Sys2Proof

/-- A camera lane of a skein, or a lane of a Limileri port: what an eye scan or an equaliser loop
acts on (R164, R165, R447, R448). -/
inductive LaneId where
  | skein (n : Fin 16) (lane : Fin 6)
  | fabric (p : Fin 5) (lane : Fin 4)
  deriving DecidableEq, Repr

/-- The two equaliser loops of a lane (R164, R447). -/
inductive EqLoop where
  | ctle
  | dfe
  deriving DecidableEq, Repr

/-- What a lane's eye scan measured: width and residual in taps, height in mV (R165, R168). -/
structure EyeResult where
  width : Nat
  height : Nat
  residual : Int
  deriving DecidableEq, Repr

/-- One packet of line data of a camera line (R147, R151). `reply` names the camera line that a
resent copy belongs to; a packet of the line in progress has none. -/
structure Packet where
  sline : Fin 4
  index : Nat
  format : BitVec 4
  crcOk : Bool
  reply : Option Nat
  data : List Byte
  deriving DecidableEq, Repr

/-- What arrives as, or in the place of, an image header (R143, R152). `reply` marks the copy that
answers the resend request for a bad header; `isHeader` says what that copy turned out to be. -/
structure Header where
  format : BitVec 4
  crcOk : Bool
  reply : Bool
  isHeader : Bool
  deriving DecidableEq, Repr

/-- One SSI frame as clocked in (R100, R101). -/
structure SsiFrame where
  reading : BitVec 32
  status : BitVec 4
  parity : Bool
  released : Bool
  deriving DecidableEq, Repr

/-- An access of the host to BAR0 or BAR2 (R666, R667). `be` are the byte enables of the word. -/
inductive HostAccess where
  | bar0Write (off : Nat) (value : Word) (be : BitVec 4)
  | bar0Write64 (off : Nat) (value : Dword)
  | bar0Read (off : Nat)
  | bar0Read64 (off : Nat)
  | bar2Write (off : Nat) (bytes : List Byte)
  | bar2Read (off : Nat) (len : Nat)
  deriving DecidableEq, Repr

/-- A Limileri frame between the START block and the trailer (R451). -/
structure Frame where
  cls : BitVec 4
  dst : BitVec 6
  src : BitVec 6
  len : BitVec 5
  bcast : Bool
  rsv : Nat
  lseq : BitVec 12
  hops : BitVec 6
  payload : List Dword
  ack : BitVec 12
  ackValid : Bool
  crPool : BitVec 3
  crCount : BitVec 8
  deriving DecidableEq, Repr

/-- How a frame reached a port: what the receiver found wrong with it on the wire (R452). -/
structure Wire where
  crcOk : Bool
  blockError : Bool
  deriving DecidableEq, Repr

/-- The partner fields exchanged in READY and ACK blocks (R444 step 5, R449). -/
structure Partner where
  serial : Dword
  node : BitVec 6
  nodeValid : Bool
  port : BitVec 3
  major : BitVec 4
  good : BitVec 4
  deriving DecidableEq, Repr

/-- A time as PTP and SYNC frames carry it: seconds, nanoseconds, 2^-16 ns (R43, R479). -/
structure WireTime where
  sec : Nat
  ns : Nat
  frac : Nat
  deriving DecidableEq, Repr

/-- The dataset of an Announce message (R504), compared as the standard states. -/
structure AnnounceMsg where
  port : Fin 2
  domain : BitVec 8
  own : Bool
  priority1 : BitVec 8
  clockClass : BitVec 8
  accuracy : BitVec 8
  variance : BitVec 16
  priority2 : BitVec 8
  identity : Dword
  steps : BitVec 16
  deriving DecidableEq, Repr

/-- A PTP Sync as received: its origin time and correction, and its ingress stamp before the PHY
latency is taken out (R505, R506). -/
structure SyncMsg where
  port : Fin 2
  domain : BitVec 8
  identity : Dword
  origin : WireTime
  correction : Int
  ingressCycleFrac : Int
  deriving DecidableEq, Repr

/-- The kinds of frame that cross the two-port bridge (R508 to R510). -/
inductive BridgeKind where
  | event
  | general
  | peerDelay
  | other
  deriving DecidableEq, Repr

/-- A frame offered to the two-port bridge (R508 to R510): its ingress port, kind, whether it is
addressed to this part alone, its correctionField, and its residence in 2^-16 ns. -/
structure BridgeFrame where
  port : Fin 2
  kind : BridgeKind
  toPartAlone : Bool
  correction : Int
  residence : Nat
  deriving DecidableEq, Repr

/-- A staging operation as a source sends it (R636, R637): source 1 is PCIe, 2 Ethernet, 3 the
fabric, 4 the Pairing link. -/
structure UpdRequest where
  source : Fin 5
  token : BitVec 16
  offset : Nat
  crc : Word
  payload : List Byte
  deriving DecidableEq, Repr

/-- An error whose detection has no row of its own (R614): link ECC, QDR-IV, SRAM. -/
structure OutsideError where
  code : BitVec 8
  sev : BitVec 2
  level : BitVec 3
  page : Nat
  detail : Word
  deriving DecidableEq, Repr

/-- The calibration classes of R602 in bit order of CAL_GO, each with the target in its class. -/
inductive CalTarget where
  | cameraLane (n : Fin 16) (lane : Fin 6)
  | fabricLane (p : Fin 5) (lane : Fin 4)
  | lpxChannel (cc : Fin 16)
  | qdrChannel (cc : Fin 4)
  | delayLine (nn : Fin 16)
  deriving DecidableEq, Repr

/-- A memory training result of one byte lane or data group (R432, R437). -/
structure TrainResult where
  lane : Fin 4
  rdWidth : Nat
  rdHeight : Nat
  rdResidual : Int
  wrWidth : Nat
  wrHeight : Nat
  wrResidual : Int
  deriving DecidableEq, Repr

/-- One rank's refresh-rate readout (R421, R422). -/
inductive RateReadout where
  | code (c : Fin 5) (derate : Bool)
  | aboveLimit
  | failed
  deriving DecidableEq, Repr

/-- The commands of the block, one per row of spec/opcode_table.json in the table's order. -/
inductive Instr where
  -- encoders, compare units, triggers (03)
  | encoderEdge (c : Fin 4) (a b : Bool) (samples : Nat)
  | dueInstant (u : Fin 24)
  | latePulse (u : Fin 24)
  | timerTrigger (nn : Fin 16)
  | trigNn (nn : Fin 16) (slot : Fin 96)
  | los (c : Fin 6)
  | ssiFrame (c : Fin 2) (f : SsiFrame)
  | stale (c : Fin 2)
  | index (c : Fin 4)
  | idxCorr (c : Fin 4)
  | speedOutput (c : Fin 8)
  | alignGo
  | encAlign (slot : Fin 96)
  -- commits and register access (02, 18)
  | recipeCommit (page : Nat)
  | commitNow
  | arm (page : Nat) (value : Word)
  | disarm (page : Nat)
  | registerWrite (a : HostAccess)
  | srst (page : Nat)
  | randPowerGate (page : Nat) (en : Bool)
  | rootLockLost
  | weaverParity (ctx : Bool) (wale : Fin 16) (rand : Fin 4) (weaver : Fin 6) (colour : Bool)
  | stakeIsolated (die : Fin 4) (detail : Word)
  | slathFault (detail : Word)
  -- camera ports (04)
  | laneLock (n : Fin 16) (lane : Fin 6) (skew : Nat)
  | laneLockLoss (n : Fin 16) (lane : Fin 6)
  | slip (n : Fin 16) (lane : Fin 6)
  | lineStart (n : Fin 16) (h : Header)
  | videoPacket (n : Fin 16) (p : Packet)
  | lineEnd (n : Fin 16)
  | lineMissing (n : Fin 16)
  | lineTimeout (n : Fin 16)
  | resendExpiry (n : Fin 16)
  | cameraStall (n : Fin 16)
  | gpioMessage (n : Fin 16) (levels : BitVec 4)
  | statusMsg (n : Fin 16) (payload : Word)
  | camGpout (n : Fin 16) (k : Fin 4) (level : Bool) (carried : Bool)
  | scanStart (l : LaneId)
  | scanDone (l : LaneId) (r : EyeResult)
  | ctleDfeUpdate (l : LaneId) (loop : EqLoop) (computed : Int)
  -- wales (05, 06, 07)
  | waleTakeLine (w : Fin 16) (ctx : Bool)
  | alignedLine (w : Fin 16) (ctx : Bool)
  | statReady (w : Fin 16) (ctx : Bool)
  | contribution (w : Fin 16) (ctx : Bool)
  | staggerReadback (w : Fin 16) (ctx : Bool)
  | systemLineRelease (ss : Fin 8)
  | stitchTimeout (ss : Fin 8)
  | runFormation (w : Fin 16) (ctx : Bool)
  | thresholdUpdate (w : Fin 16) (ctx : Bool)
  -- coil tracker (08)
  | trackerLine (ss : Fin 8)
  | unpark (handle : Nat) (uncorrectable : Bool)
  | trkFlush
  | seamLine (src : BitVec 6) (words : List Dword)
  | seamJoin (src : BitVec 6) (words : List Dword)
  | shareClose (src : BitVec 6) (words : List Dword)
  | shareCut (src : BitVec 6) (words : List Dword)
  | seamFlush (src : BitVec 6) (words : List Dword)
  | seamBroken (right : Bool)
  | seamRearm (left right : Bool)
  | frontierScrub (ss : Fin 8)
  | peek (handle : Nat)
  -- Border and host transfer (09)
  | recordIntake
  | recordDelivery (dd : Fin 4)
  | borderVerdict (hi : Word)
  | refineTimeout
  | patchWrite
  | datagramSend (port : Fin 2)
  | heartbeatDatagram (port : Fin 2)
  | udpResendRequest (port : Fin 2) (fromDst : Bool) (payload : List Byte)
  | hostInterfaceReset
  | doorbell (prod : Word)
  | ringConsWrite (rr : Fin 5) (cons : Word)
  | commandFetch
  | fence (tag : Fin 512)
  | nop (tag : Fin 512)
  | regBulkRead (tag : Fin 512) (dmaOk : Bool)
  | regBulkWrite (tag : Fin 512) (dmaOk : Bool)
  | patchFetch (tag : Fin 512) (dmaOk : Bool)
  | recordFetch (tag : Fin 512) (dmaOk : Bool)
  | reprocess (tag : Fin 512)
  | completionWrite
  | coalTime (vector : Fin 4)
  -- history and reprocessing (10)
  | chunkWrite (nn : Fin 32) (room : Bool)
  | reprocessStart
  | jobDone (slot : Fin 4)
  -- memory controllers (11)
  | lpxPointChange (point : BitVec 2)
  | refreshDue (cc : Fin 16) (rank : Bool) (realTime : Bool)
  | refreshRatePoll (cc : Fin 16) (r0 r1 : RateReadout)
  | paybackWindow (cc : Fin 16) (rank : Bool)
  | bankIdle (cc : Fin 16) (rank : Bool) (bank : Fin 16)
  | srReq (enter : Bool)
  | lpxTrain (cc : Fin 16) (results : List TrainResult)
  | oscTrack (cc : Fin 16) (lane : Bool) (taps : Int)
  | qdrTrain (cc : Fin 4) (results : List TrainResult)
  -- Limileri fabric (12)
  | fabLinkEnable (p : Fin 5) (cfg : Word)
  | fabLinkUp (p : Fin 5) (good : BitVec 4) (deskewFail : Bool) (partner : Partner)
  | bringupTimeout (p : Fin 5)
  | fabLinkDown (p : Fin 5) (slip : BitVec 4)
  | frameReceive (p : Fin 5) (f : Frame) (w : Wire)
  | nak (p : Fin 5) (f : Frame)
  | credit (p : Fin 5) (f : Frame)
  | ack (p : Fin 5)
  | replayTimeout (p : Fin 5)
  | hello (p : Fin 5) (f : Frame)
  | helloSend
  | nodeTimeout (node : BitVec 6) (serial : Dword)
  | election
  | assign (p : Fin 5) (f : Frame)
  | topoChange
  | fabRouteCommit
  | heldFrameDrop (p : Fin 5)
  | refIdle
  | refLineArrival (src : BitVec 6) (words : List Dword)
  | refLineEffect
  | refLost
  | relayPublish (r : Fin 2)
  | relaySampleArrival (r : Fin 2) (src : BitVec 6) (words : List Dword)
  | relaySampleEffect (r : Fin 2)
  | syncSend
  | sync (p : Fin 5) (f : Frame) (ingress : WireTime)
  | pdelayReq (p : Fin 5)
  | pdelayResp (p : Fin 5) (f : Frame) (ingress : WireTime)
  | epochGo (value : Word)
  | prepare (src : BitVec 6) (words : List Dword)
  | vote (src : BitVec 6) (words : List Dword)
  | record (src : BitVec 6) (words : List Dword)
  | recordAck (src : BitVec 6) (words : List Dword)
  | recordAckSend (node : BitVec 6)
  | dest03Resend
  -- time base and PTP (13)
  | timeAdj (hi : Word)
  | adjDone
  | setGo (force : Bool)
  | stepGo (force : Bool)
  | servoStep (sec : Nat) (ns : Nat) (frac : Nat) (offsetNs : Int)
  | ptpSync (m : SyncMsg)
  | announce (m : AnnounceMsg)
  | srcLost
  | tcForward (f : BridgeFrame)
  -- Pairing (14)
  | claimDelay (act : Bool)
  | claimConfirm (act : Bool)
  | mirror (words : List Dword)
  | mirrorApply
  | mirrorAck (words : List Dword)
  | forward (words : List Dword)
  | triggerBusPulse (nn : Fin 16) (seen : Bool)
  | encMismatch
  | digestSend
  | digest (words : List Dword)
  | digestTimeout
  | pairLinkLost
  | heartbeat (words : List Dword)
  | gateTimeout
  | report (words : List Dword)
  | takeover
  | swap (value : Word)
  | swapFrame (words : List Dword)
  | swapEffect
  | join (words : List Dword)
  | joinFail (cause : Fin 6)
  | rejoin
  | pairTime (words : List Dword) (ingress : WireTime)
  | updateFragment (words : List Dword)
  -- Wicker, interrupts, power states (15)
  | pselWrite (pp : Fin 96) (value : Word)
  | wkrRoutingWrite (off : Nat) (value : Word)
  | groupEdge (gg : Fin 16) (on off : Bool)
  | cellEdge (nn : Fin 32) (balls : BitVec 8)
  | snapshot (slot : Fin 96)
  | interruptArrival (src : Fin 512) (level : Bool)
  | complete (tt : Fin 5) (src : Fin 512)
  | swiSet (bits : Word)
  | swiClear (bits : Word)
  | reqRun
  | reqIdle
  | reqDeepSleep
  | wake (slot : Fin 96)
  | hostWake
  | timerWake
  | motionWake
  -- power, thermal behaviour and health (16)
  | sensorRead (readings : List (BitVec 16)) (powers : List Nat)
  | throttle
  | powerLimit (unit : Fin 6) (average : Nat)
  | shutdownReq
  | thermTrip
  | tripComparator
  | tripReleaseCheck
  | avsUpdate (d : Fin 5) (slack : BitVec 8) (mv : BitVec 16)
  | ageingMeasure (d : Fin 5) (count : BitVec 16)
  | ageingAppend
  | calCheck
  | calGo (classes : BitVec 5)
  | calDone (t : CalTarget) (r : EyeResult)
  | monBinSel (mm : Fin 16)
  | correctedFault (cls : Fin 4) (location : Word) (inWale : Bool)
  | rowRemap (die : Fin 5) (location : Word)
  | errorArrival (e : Option OutsideError)
  | errcDone (seq : BitVec 16)
  | snapGo
  -- resets, boot and update (17, 19)
  | powerOnReset (side testEn refRootOk twinOk twinAct : Bool)
  | supplyRailLoss (rail : Fin 12)
  | warmReset
  | watchdogExpiry
  | updOpen (r : UpdRequest)
  | updWrite (r : UpdRequest)
  | program
  | close (r : UpdRequest)
  | abort (r : UpdRequest)
  | status (r : UpdRequest)
  | sessionTimeout
  | activate (r : UpdRequest) (force : Bool)
  | managementRestartDone
  | mcGo
  | microcodeChange
  | freezeRecipe
  | settingsWrite
  | goodStart
  -- rows added at the end of the table
  | inputRecovers (c : Fin 6) (a b : Bool)
  | rootLockReturns
  | refRootOk
  | ethernetLinkDown (port : Fin 2)
  | ethernetLinkUp (port : Fin 2)
  | relayRefLoss (r : Fin 2)
  | assignRepeat
  | nakRepeat (p : Fin 5)
  | pairOkInRise (act : Bool)
  | heartbeatSend
  | reportSend
  | pairTimeSend
  | snapshotComplete
  | jobLine (slot : Fin 4)
  | ptpSyncInterval
  | ptpAnnounceInterval
  | delayReqInterval
  | delayReq (port : Fin 2) (domain : BitVec 8) (identity : Dword) (correction : Int)
  | delayResp (port : Fin 2) (domain : BitVec 8) (receipt : WireTime) (correction : Int)
  deriving DecidableEq, Repr

end Sys2Proof
end

