-- ==== Sys2Proof/Decode.lean ====
section
/-!
DEFINITION. The table gives no row of this block any bits: its commands are events, not words. So no word
spells a command, and the decoder refuses every word.
-/

namespace Sys2Proof

/-- The command a word of `nbits` bits spells by the table's bits: none, since no row has bits. -/
def decodeTableWord (_nbits _w : Nat) : Option Instr := none

end Sys2Proof
end

