-- ==== Sys2Proof/Config.lean ====
section
/-!
DEFINITION. The free values: what the spec leaves open and the part goes on with. Each is an opaque
constant, so nothing can be proved of which value it is; the log entry named beside each says why the
spec leaves it open.
-/

namespace Sys2Proof

/-- SPD_LAT as the part computes it from M, D2 and the two responses; R113 gives no formula (DESIGN CHOICE, log 10). -/
opaque Config.speedLatency : Nat → Nat → Nat → Nat → Nat

/-- System line that a position note names as the last stamped before it when no line was, by edge (R332, DESIGN CHOICE, log 22). -/
opaque Config.noLineYet : Nat → BitVec 64

/-- Web position reported for a system line that has no stamp, by line number (R474, DESIGN CHOICE, log 11). -/
opaque Config.unstampedWeb : Nat → BitVec 64

/-- Time word reported for a system line that has no stamp, by line number (R474, DESIGN CHOICE, log 11). -/
opaque Config.unstampedTime : Nat → BitVec 64

/-- Where the search for a free coil handle or QDR-IV slot starts; R283 says only that it is free (DESIGN CHOICE, log 12). -/
opaque Config.handlePick : Nat → Nat

/-- Which of several coils with the same oldest LAST is parked (R296, DESIGN CHOICE, log 12). -/
opaque Config.parkPick : Nat → Nat

/-- Whether elongation and orientation are rounded up from a real result between two units (R303 allows
an error of one unit; DESIGN CHOICE, log 13). -/
opaque Config.elongUp : List Int → Bool
opaque Config.orientUp : List Int → Bool

/-- Elongation where the stored moments have no positive minor axis (R303, DESIGN CHOICE, log 13). -/
opaque Config.elongOpen : List Int → BitVec 16

/-- Mean, MIN, MAX and peak deviation of a record of AREA 0, by coil ID (R316, DESIGN CHOICE, log 13). -/
opaque Config.emptyCoil : Nat → BitVec 64

/-- How many of an owner's tributaries a SHARE_CLOSE stands for, less one (R315, DESIGN CHOICE, log 14). -/
opaque Config.closesFor : Nat → Nat

/-- The DEFLATE stream the part's encoder produces for a transformed stream (R389, DESIGN CHOICE, log 15). -/
opaque Config.deflate : List Byte → List Byte

/-- Lines of a station that patch staging holds (R349 gives no number, DESIGN CHOICE, log 16). -/
opaque Config.stagingDepth : Nat

/-- A byte of the seam journal as the host reads it, by data address (R435 gives no layout, DESIGN CHOICE, log 17). -/
opaque Config.journalByte : Nat → BitVec 8

/-- The prediction of compressed patches (R385 gives none for them, DESIGN CHOICE, log 15). -/
opaque Config.patchPred : Nat

/-- A byte of LPDDR5X whose contents self-refresh has lost, by the number of losses and address (R429, DESIGN CHOICE, log 20). -/
opaque Config.lpxByte : Nat → Nat → BitVec 8

/-- Whether PTP_OFFSET or PTP_PATH_DELAY is rounded up from a value in 2^-16 ns between two whole ns (R505, R513
say only that they are in ns; DESIGN CHOICE, log 24). -/
opaque Config.ptpUp : Int → Bool

/-- Which of the 24 Slath sensors is nearest to a target, by its number (R422, R602, DESIGN CHOICE, log 21). -/
opaque Config.nearSensor : Nat → Nat

/-- Which reference inputs beside REFCLK_ROOT are present: CLK_STAT[18:0] (R66; no command tells them, DESIGN CHOICE, log 25). -/
opaque Config.refsPresent : BitVec 19

/-- The supply voltage in mV behind monitor source 0x25 to 0x2A, by source and edge (R606; no command conveys these
measurements, DESIGN CHOICE, log 27). -/
opaque Config.railMv : Nat → Nat → Nat

/-- Whether the median of an even number of readings is rounded up when its two middle ones differ by an odd number
(R583 does not say; DESIGN CHOICE, log 28). -/
opaque Config.medianUp : Int → Int → Bool

/-- SEQ in ERRC_FIRST of an error that was not presented, by edge (R609 gives SEQ to presented errors only; DESIGN CHOICE, log 29). -/
opaque Config.firstSeq : Nat → BitVec 16

/-- Which side's summary lay in an uncorrectable word of the seam journal: the right one or the left (R435 gives no
layout; DESIGN CHOICE, log 17). -/
opaque Config.journalSide : Nat → Bool

/-- Time in 2^-16 ns from a SYNC's first bit entering to its first bit leaving, by edge and port (R479; the spec gives
bounds for a hop and no value, DESIGN CHOICE, log 31). -/
opaque Config.residence : Nat → Nat → BitVec 32

/-- REFUSE_CAUSE of a request of PWR_CTRL.REQ 0b11, which R578 refuses and R572's table does not list (DESIGN CHOICE, log 32). -/
opaque Config.badReqCause : BitVec 3

/-- Whether an Ethernet port runs 9,000-byte frames, on which MAX_RECS may pass 22 (R365 gives no register; DESIGN CHOICE, log 41). -/
opaque Config.jumboPort : Nat → Bool

/-- SEQ of the first copy a journalled store ever takes, by the store (R653 gives it from the newest copy only; DESIGN CHOICE, log 46). -/
opaque Config.firstCopySeq : Nat → BitVec 32

/-- TOKEN of a staging session, by the number of sessions opened before it (R636 gives no rule; DESIGN CHOICE, log 44). -/
opaque Config.token : Nat → BitVec 16

/-- What a settings copy of a schema says to write, in order: whether a table block at a BAR2 offset or registers from
a BAR0 offset, and the bytes (R648, R649; the spec gives the body no layout, DESIGN CHOICE, log 51). -/
opaque Config.settingsEntries : Nat → List Byte → List (Bool × Nat × List Byte)

/-- Milliseconds from a reset's release to Run, by the resets before it (R625 gives a maximum of 450; DESIGN CHOICE, log 52). -/
opaque Config.bootTime : Nat → BitVec 32

/-- DETAIL of an error that concerns no address, lane, handle or channel, by code and edge (R609; DESIGN CHOICE, log 58). -/
opaque Config.errDetail : Nat → Nat → BitVec 32

/-- The D words that PEEK shows of a handle that holds no context, a free or a forward one, by edge, handle and word
(R321 says what is copied of a context alone; DESIGN CHOICE, log 63). -/
opaque Config.voidContext : Nat → Nat → Nat → BitVec 32

end Sys2Proof
end

