-- ==== Sys2Proof/Machine/Bits.lean ====
section
/-!
DEFINITION. Bit fields, signed readings and the rounding of R17, as every block uses them.
-/

namespace Sys2Proof.Machine

/-- Field [hi:lo] of a natural number (R11). -/
def natField (x hi lo : Nat) : Nat := (x >>> lo) % 2 ^ (hi + 1 - lo)

/-- Field [hi:lo] of a word (R11). -/
def fld (w : Word) (hi lo : Nat) : Nat := natField w.toNat hi lo

/-- One bit of a word. -/
def bitOf (w : Word) (i : Nat) : Bool := w.getLsbD i

/-- The word whose bits [hi:lo] are ones. -/
def maskOf (hi lo : Nat) : Word := BitVec.ofNat 32 ((2 ^ (hi + 1 - lo) - 1) <<< lo)

/-- `w` with field [hi:lo] replaced by the low bits of `v`. -/
def putFld (w : Word) (hi lo v : Nat) : Word :=
  (w &&& ~~~ (maskOf hi lo)) ||| BitVec.ofNat 32 ((v % 2 ^ (hi + 1 - lo)) <<< lo)

/-- `w` with one bit set or cleared. -/
def putBit (w : Word) (i : Nat) (b : Bool) : Word :=
  if b then w ||| BitVec.ofNat 32 (1 <<< i) else w &&& ~~~ (BitVec.ofNat 32 (1 <<< i))

/-- A natural number read as two's complement of `n` bits (R16). -/
def toSigned (n x : Nat) : Int :=
  let y := x % 2 ^ n
  if y < 2 ^ (n - 1) then (y : Int) else (y : Int) - (2 : Int) ^ n

/-- An integer wrapped into `n` bits. -/
def wrapNat (n : Nat) (x : Int) : Nat := (x % (2 : Int) ^ n).toNat

/-- `sat(x, lo, hi)` of R17. -/
def satI (x lo hi : Int) : Int := if x < lo then lo else if x > hi then hi else x

/-- Arithmetic shift right, toward minus infinity (R17). -/
def shr (x : Int) (k : Nat) : Int := x / (2 : Int) ^ k

/-- `round(x / 2^k)`: to nearest, halves up (R17). -/
def roundShr (x : Int) (k : Nat) : Int := if k = 0 then x else (x + (2 : Int) ^ (k - 1)) / (2 : Int) ^ k

/-- `round(a / b)` for a positive `b`: to nearest, halves up (R17). -/
def roundDiv (a : Int) (b : Nat) : Int := if b = 0 then 0 else (2 * a + b) / (2 * (b : Int))

/-- A counter of `n` bits that saturates (R14). -/
def satInc (n x by' : Nat) : Nat := min (x + by') (2 ^ n - 1)

/-- Number of bits set among the low `n` bits. -/
def popCount : Nat → Nat → Nat
  | 0, _ => 0
  | n + 1, x => x % 2 + popCount n (x / 2)

/-- The indices below `n` whose bit is set in `x`, rising. -/
def bitIdx (n x : Nat) : List Nat := (List.range n).filter (fun i => x.testBit i)

/-- Little-endian bytes of a number (R11). -/
def leBytes : Nat → Nat → List Byte
  | 0, _ => []
  | n + 1, x => BitVec.ofNat 8 x :: leBytes n (x / 256)

/-- The number a little-endian byte list holds (R11). -/
def ofLeBytes : List Byte → Nat
  | [] => 0
  | b :: bs => b.toNat + 256 * ofLeBytes bs

/-- Big-endian bytes of a number. -/
def beBytes (n x : Nat) : List Byte := (leBytes n x).reverse

/-- The number a big-endian byte list holds. -/
def ofBeBytes (bs : List Byte) : Nat := ofLeBytes bs.reverse

/-- Field [hi:lo] of a 64-bit word. -/
def dfld (w : Dword) (hi lo : Nat) : Nat := natField w.toNat hi lo

/-- A 64-bit word made of fields given as (low bit, width, value), widest last; fields do not overlap. -/
def dpack : List (Nat × Nat × Nat) → Dword
  | [] => 0
  | (lo, n, v) :: r => BitVec.ofNat 64 ((v % 2 ^ n) <<< lo) ||| dpack r

/-- A 32-bit word made of fields given as (low bit, width, value). -/
def wpack : List (Nat × Nat × Nat) → Word
  | [] => 0
  | (lo, n, v) :: r => BitVec.ofNat 32 ((v % 2 ^ n) <<< lo) ||| wpack r

/-- Word `i` of a payload, zero past its end. -/
def dwAt (ws : List Dword) (i : Nat) : Dword := ws.getD i 0

/-- Integer square root by `n` halving steps of the bracket [lo, hi). -/
def isqrtLoop : Nat → Nat → Nat → Nat → Nat
  | 0, lo, _, _ => lo
  | n + 1, lo, hi, x =>
    let m := (lo + hi) / 2
    if m * m ≤ x then isqrtLoop n m hi x else isqrtLoop n lo m x

/-- The integer part of the square root of `x`. -/
def isqrt (x : Nat) : Nat := isqrtLoop (x.log2 / 2 + 2) 0 (2 ^ (x.log2 / 2 + 1)) x

end Sys2Proof.Machine
end

