-- ==== Sys2Proof/Machine/Container.lean ====
section
/-!
DEFINITION. The Treley container: CRC-32C, the packing of rows, the prediction transform, DEFLATE streams and
the five decoder errors (R385 to R390).
-/

namespace Sys2Proof.Machine

/-- One bit step of the reflected Castagnoli polynomial (R386). -/
def crcStep (c : Nat) : Nat := if c % 2 = 1 then (c / 2) ^^^ 0x82F63B78 else c / 2

/-- CRC-32C (R386). -/
def crc32c (bs : List Byte) : Nat :=
  (bs.foldl (fun c b => Nat.repeat crcStep 8 (c ^^^ b.toNat)) 0xFFFFFFFF) ^^^ 0xFFFFFFFF

/-- Samples packed at `b` bits in the bit order of R175, with zero bits up to the next byte (R387). -/
def packBits (b : Nat) (vs : List Nat) : List Byte :=
  leBytes ((vs.length * b + 7) / 8) (vs.foldr (fun v a => a * 2 ^ b + v % 2 ^ b) 0)

/-- `n` samples of `b` bits read back from packed bytes (R387). -/
def unpackBits (b n : Nat) (bs : List Byte) : List Nat :=
  let x := ofLeBytes bs
  (List.range n).map (fun i => (x >>> (b * i)) % 2 ^ b)

/-- A row of a container: its planes, HAS_FLAGS of its row byte, and the mask and SAT flag of its columns. -/
structure CRow where
  planes : List (List Nat) := []
  has : Bool := false
  mask : List Bool := []
  sat : List Bool := []
  deriving DecidableEq, Repr, Inhabited

/-- A row the part writes: HAS_FLAGS is set exactly when some column carries a flag (R387). -/
def newRow (planes : List (List Nat)) (mask sat : List Bool) : CRow :=
  { planes := planes, has := mask.any (fun b => b) || sat.any (fun b => b), mask := mask, sat := sat }

/-- The bitmap of a row's flags (R387). -/
def flagMap (r : CRow) : List Byte := packBits 2 ((r.mask.zip r.sat).map (fun p => p.1.toNat + 2 * p.2.toNat))

/-- The frame of a row around its plane bytes: row byte and bitmap as FLAGS asks (R387). -/
def rowFrame (fl : Nat) (r : CRow) (body : List Byte) : List Byte :=
  (if fl = 2 then [BitVec.ofNat 8 r.has.toNat] else []) ++ body ++
    (if fl = 1 ∨ (fl = 2 ∧ r.has) then flagMap r else [])

/-- The original (R387). -/
def original (fl b : Nat) (rows : List CRow) : List Byte :=
  rows.flatMap (fun r => rowFrame fl r (r.planes.flatMap (packBits b)))

/-- The prediction of column `j` from the sample to its left and the one above (R388). -/
def predict (pr : Nat) (left up first : Option Nat) : Nat :=
  match pr with
  | 1 => match left with
    | some l => l
    | none => first.getD 0
  | 2 => match up with
    | some u => u
    | none => left.getD 0
  | 3 => match left, up with
    | some l, some u => (l + u) / 2
    | some l, none => l
    | none, some u => u
    | none, none => 0
  | _ => 0

/-- The zigzag residual of a sample (R388). -/
def zigzag (b v p : Nat) : Nat :=
  let r := (v + 2 ^ b - p % 2 ^ b) % 2 ^ b
  if r < 2 ^ (b - 1) then 2 * r else 2 * (2 ^ b - r) - 1

/-- The residuals of one plane row over the row above it (R388). -/
def residuals (pr b : Nat) (prev : Option (List Nat)) (vs : List Nat) : List Nat :=
  vs.zipIdx.map (fun p =>
    let left := if p.2 = 0 then none else vs[p.2 - 1]?
    let up := prev.bind (fun u => u[p.2]?)
    zigzag b p.1 (predict pr left up (prev.bind (fun u => u[0]?))))

/-- The bytes of a plane row in the transformed stream (R388). -/
def zBytes (b : Nat) (zs : List Nat) : List Byte :=
  zs.map (BitVec.ofNat 8) ++ (if b > 8 then zs.map (fun z => BitVec.ofNat 8 (z / 256)) else [])

/-- The transformed stream T (R388). -/
def transform (fl pr b : Nat) (rows : List CRow) : List Byte :=
  (rows.zip (none :: rows.map some)).flatMap (fun p =>
    rowFrame fl p.1 (p.1.planes.zipIdx.flatMap (fun v =>
      zBytes b (residuals pr b (p.2.bind (fun u => u.planes[v.2]?)) v.1))))

/-- The decoder errors (R390). -/
inductive DecErr where
  | illegalCode
  | distBeyond
  | lenOverrun
  | crcMismatch
  | headerFault
  deriving DecidableEq, Repr

/-- The code of a decoder error (R390). -/
def DecErr.code : DecErr → Nat
  | .illegalCode => 1
  | .distBeyond => 2
  | .lenOverrun => 3
  | .crcMismatch => 4
  | .headerFault => 5

/-- `n` bits of a stream from bit `pos`, least significant first; none beyond its end. -/
def streamBits (b : Array Byte) (pos n : Nat) : Option Nat :=
  if pos + n ≤ 8 * b.size then
    some ((List.range n).foldl (fun a i =>
      a + (if (b.getD ((pos + i) / 8) 0).getLsbD ((pos + i) % 8) then 2 ^ i else 0)) 0)
  else none

/-- A canonical code: how many symbols have each length, and the symbols by length, then value. -/
structure HufCode where
  counts : List Nat
  syms : Array Nat

/-- The canonical code of a list of code lengths. -/
def hufOf (ls : List Nat) : HufCode where
  counts := (List.range 16).map (fun l => if l = 0 then 0 else (ls.filter (fun x => decide (x = l))).length)
  syms := ((List.range 16).flatMap (fun l => if l = 0 then []
    else (ls.zipIdx.filter (fun x => decide (x.1 = l))).map (fun x => x.2))).toArray

/-- Places a code leaves open: negative when over-subscribed, positive when incomplete. -/
def hufLeft (ls : List Nat) : Int :=
  ((hufOf ls).counts.drop 1).foldl (fun (a : Int) (n : Nat) => 2 * a - (n : Int)) 1

/-- A complete set of code lengths (R390). -/
def hufComplete (ls : List Nat) : Bool := decide (hufLeft ls = 0)

/-- A distance set: complete, or one code of one bit, or none at all, as RFC 1951 permits (R390). -/
def distOk (ls : List Nat) : Bool :=
  hufComplete ls || ls.all (fun l => decide (l = 0)) ||
    (decide ((ls.filter (fun l => decide (l ≠ 0))).length = 1) && ls.contains 1)

/-- Read one symbol: `code`, `first` and `index` walk the canonical code. -/
def hufLoop (b : Array Byte) (syms : Array Nat) : List Nat → Nat → Nat → Nat → Nat → Except DecErr (Nat × Nat)
  | [], _, _, _, _ => .error .illegalCode
  | n :: ns, pos, code, first, index =>
    match streamBits b pos 1 with
    | none => .error .lenOverrun
    | some x =>
      let code := 2 * code + x
      let first := 2 * first
      if code < first + n then
        if first ≤ code then .ok (syms.getD (index + (code - first)) 0, pos + 1) else .error .illegalCode
      else hufLoop b syms ns (pos + 1) code (first + n) (index + n)

/-- Read one symbol of a code at bit `pos`. -/
def hufRead (b : Array Byte) (h : HufCode) (pos : Nat) : Except DecErr (Nat × Nat) :=
  hufLoop b h.syms (h.counts.drop 1) pos 0 0 0

/-- Extra bits and base of a length symbol (RFC 1951). -/
def lenSym (s : Nat) : Nat × Nat :=
  if s = 285 then (0, 258)
  else if s < 265 then (0, s - 254)
  else ((s - 261) / 4, 3 + (4 + (s - 265) % 4) * 2 ^ ((s - 261) / 4))

/-- Extra bits and base of a distance symbol (RFC 1951). -/
def distSym (s : Nat) : Nat × Nat :=
  if s < 4 then (0, s + 1) else (s / 2 - 1, 1 + (2 + s % 2) * 2 ^ (s / 2 - 1))

/-- Copy `n` bytes from `dist` back. -/
def copyBack (dist : Nat) : Nat → Array Byte → Array Byte
  | 0, out => out
  | n + 1, out => copyBack dist n (out.push (out.getD (out.size - dist) 0))

/-- The codes of one block until its end symbol. -/
def blockCodes (b : Array Byte) (lit dist : HufCode) (tlen : Nat) : Nat → Nat → Array Byte → Except DecErr (Nat × Array Byte)
  | 0, _, _ => .error .lenOverrun
  | fuel + 1, pos, out =>
    match hufRead b lit pos with
    | .error e => .error e
    | .ok (s, pos) =>
      if s < 256 then
        if out.size < tlen then blockCodes b lit dist tlen fuel pos (out.push (BitVec.ofNat 8 s)) else .error .lenOverrun
      else if s = 256 then .ok (pos, out)
      else if s > 285 then .error .illegalCode
      else
        let le := lenSym s
        match streamBits b pos le.1 with
        | none => .error .lenOverrun
        | some x =>
          match hufRead b dist (pos + le.1) with
          | .error e => .error e
          | .ok (t, pos) =>
            if t > 29 then .error .illegalCode
            else
              let de := distSym t
              match streamBits b pos de.1 with
              | none => .error .lenOverrun
              | some y =>
                if de.2 + y > out.size then .error .distBeyond
                else if out.size + (le.2 + x) > tlen then .error .lenOverrun
                else blockCodes b lit dist tlen fuel (pos + de.1) (copyBack (de.2 + y) (le.2 + x) out)

/-- The code lengths of a dynamic block, run-length coded; newest first in `acc` (RFC 1951). -/
def codeLens (b : Array Byte) (cl : HufCode) (total : Nat) : Nat → Nat → List Nat → Except DecErr (Nat × List Nat)
  | 0, _, _ => .error .illegalCode
  | fuel + 1, pos, acc =>
    if acc.length = total then .ok (pos, acc.reverse)
    else
      match hufRead b cl pos with
      | .error e => .error e
      | .ok (s, pos) =>
        let rep (bits base v : Nat) : Except DecErr (Nat × List Nat) :=
          match streamBits b pos bits with
          | none => .error .lenOverrun
          | some x =>
            if acc.length + base + x > total then .error .illegalCode
            else codeLens b cl total fuel (pos + bits) (List.replicate (base + x) v ++ acc)
        if s < 16 then codeLens b cl total fuel pos (s :: acc)
        else if s = 16 then
          match acc with
          | [] => .error .illegalCode
          | v :: _ => rep 2 3 v
        else if s = 17 then rep 3 3 0
        else rep 7 11 0

/-- The order in which code-length code lengths are sent (RFC 1951). -/
def clOrder : List Nat := [16, 17, 18, 0, 8, 7, 9, 6, 10, 5, 11, 4, 12, 3, 13, 2, 14, 1, 15]

/-- The fixed literal and length code lengths (RFC 1951). -/
def fixedLit : List Nat := List.replicate 144 8 ++ List.replicate 112 9 ++ List.replicate 24 7 ++ List.replicate 8 8

/-- The codes of a dynamic block and where its data begins (R390). -/
def dynCodes (b : Array Byte) (pos : Nat) : Except DecErr (Nat × HufCode × HufCode) :=
  match streamBits b pos 14 with
  | none => .error .lenOverrun
  | some h =>
    let nl := natField h 4 0 + 257
    let nd := natField h 9 5 + 1
    let nc := natField h 13 10 + 4
    match streamBits b (pos + 14) (3 * nc) with
    | none => .error .lenOverrun
    | some x =>
      let sent := (clOrder.take nc).zipIdx.map (fun o => (o.1, (x >>> (3 * o.2)) % 8))
      let cls := (List.range 19).map (fun s => ((sent.find? (fun p => decide (p.1 = s))).map (fun p => p.2)).getD 0)
      if !hufComplete cls then .error .illegalCode
      else
        match codeLens b (hufOf cls) (nl + nd) (nl + nd + 1) (pos + 14 + 3 * nc) [] with
        | .error e => .error e
        | .ok (pos, ls) =>
          if !hufComplete (ls.take nl) || !distOk (ls.drop nl) then .error .illegalCode
          else .ok (pos, hufOf (ls.take nl), hufOf (ls.drop nl))

/-- The blocks of a stream: where the last one ends, and what they produce. -/
def inflateLoop (b : Array Byte) (tlen : Nat) : Nat → Nat → Array Byte → Except DecErr (Nat × Array Byte)
  | 0, _, _ => .error .lenOverrun
  | fuel + 1, pos, out =>
    match streamBits b pos 3 with
    | none => .error .lenOverrun
    | some h =>
      let codes : Except DecErr (Nat × HufCode × HufCode) :=
        if h / 2 = 1 then .ok (pos + 3, hufOf fixedLit, hufOf (List.replicate 32 5))
        else if h / 2 = 2 then dynCodes b (pos + 3)
        else .error .illegalCode
      match codes with
      | .error e => .error e
      | .ok (pos, lit, dist) =>
        match blockCodes b lit dist tlen (8 * b.size + 1) pos out with
        | .error e => .error e
        | .ok (pos, out) => if h % 2 = 1 then .ok (pos, out) else inflateLoop b tlen fuel pos out

/-- Decode a DEFLATE stream that stands for `tlen` bytes (R389, R390). -/
def inflate (bs : List Byte) (tlen : Nat) : Except DecErr (List Byte) :=
  let b := bs.toArray
  match inflateLoop b tlen (8 * b.size + 1) 0 #[] with
  | .error e => .error e
  | .ok (pos, out) =>
    if out.size ≠ tlen ∨ (pos + 7) / 8 ≠ b.size then .error .lenOverrun else .ok out.toList

/-- Bits of a fixed-code literal, first bit first (RFC 1951). -/
def litBits (v : Nat) : List Bool :=
  if v < 144 then (List.range 8).map (fun i => (0x30 + v).testBit (7 - i))
  else (List.range 9).map (fun i => (0x190 + (v - 144)).testBit (8 - i))

/-- Bytes of a bit list, each filled from its least significant bit. -/
def bytesOfBits (bs : List Bool) : List Byte :=
  leBytes ((bs.length + 7) / 8) (bs.foldr (fun x a => 2 * a + x.toNat) 0)

/-- A stream of one fixed block of literals, which meets R389 for any bytes. -/
def literalStream (t : List Byte) : List Byte :=
  bytesOfBits ([true, true, false] ++ t.flatMap (fun x => litBits x.toNat) ++ List.replicate 7 false)

/-- The stream the part's encoder produces: any stream that meets R389 and stands for `t` (R389, DESIGN CHOICE, log 15). -/
def deflate (t : List Byte) : List Byte :=
  let s := Config.deflate t
  match inflate s t.length with
  | .ok u => if u = t then s else literalStream t
  | .error _ => literalStream t

/-- BITS of a container header (R385). -/
def bitsCode (b : Nat) : Nat := if b = 8 then 0 else if b = 10 then 1 else if b = 12 then 2 else 3

/-- A container of rows, compressed with PRED `pr` where that is smaller, and whether it is raw (R382, R385 to
R388). -/
def container (fl pr b width : Nat) (rows : List CRow) (compress : Bool) : List Byte × Bool :=
  let o := original fl b rows
  let enc := if compress then deflate (transform fl pr b rows) else o
  let raw := !compress || decide (o.length ≤ enc.length)
  let pay := if raw then o else enc
  let np := (rows.headD {}).planes.length
  let h := leBytes 4 (0x01_7C3A + 2 ^ 24 * raw.toNat + 2 ^ 25 * fl + 2 ^ 27 * (if raw then 0 else pr) + 2 ^ 29 * bitsCode b) ++
    leBytes 2 width ++ leBytes 2 rows.length ++ leBytes 4 (np - 1) ++ leBytes 4 o.length ++ leBytes 4 pay.length ++
    leBytes 4 (crc32c o)
  (h ++ leBytes 4 (crc32c h) ++ leBytes 4 0 ++ pay, raw)

/-- Undo the transform of one plane row (R388). -/
def unresidual (pr b : Nat) (prev : Option (List Nat)) (zs : List Nat) : List Nat :=
  let up := prev.map List.toArray
  (zs.zipIdx.foldl (fun (a : Array Nat) p =>
    let left := if p.2 = 0 then none else a[p.2 - 1]?
    let q := predict pr left (up.bind (fun u => u[p.2]?)) (up.bind (fun u => u[0]?))
    let s : Int := if p.1 % 2 = 0 then (p.1 / 2 : Nat) else -(((p.1 + 1) / 2 : Nat) : Int)
    a.push (wrapNat b ((q : Int) + s))) #[]).toList

/-- A container header as read (R385). -/
structure CHead where
  raw : Bool
  fl : Nat
  pr : Nat
  b : Nat
  width : Nat
  height : Nat
  np : Nat
  orig : Nat
  pay : Nat
  crc : Nat
  deriving DecidableEq, Repr

/-- Bytes of one plane row, packed or transformed. -/
def planeBytes (h : CHead) (packed : Bool) : Nat :=
  if packed then (h.width * h.b + 7) / 8 else h.width * (if h.b > 8 then 2 else 1)

/-- Rows with a bitmap that ORIG_LEN stands for, if any number does (R390). -/
def bitmapRows (h : CHead) : Option Nat :=
  let base := h.height * ((if h.fl = 2 then 1 else 0) + h.np * planeBytes h true)
  let bm := (h.width + 3) / 4
  let k := (h.orig - base) / bm
  if h.orig < base ∨ base + k * bm ≠ h.orig then none
  else if (h.fl = 0 ∧ k = 0) ∨ (h.fl = 1 ∧ k = h.height) ∨ (h.fl = 2 ∧ k ≤ h.height) then some k
  else none

/-- The header of a container in at most `space` bytes (R385, R390). -/
def parseHead (bs : List Byte) (space : Nat) : Option CHead :=
  let w (i : Nat) : Nat := ofLeBytes ((bs.drop (4 * i)).take 4)
  let h : CHead := {
    raw := (w 0).testBit 24, fl := natField (w 0) 26 25, pr := natField (w 0) 28 27,
    b := [8, 10, 12, 16].getD (natField (w 0) 31 29) 0, width := natField (w 1) 15 0, height := natField (w 1) 31 16,
    np := natField (w 2) 1 0 + 1, orig := w 3, pay := w 4, crc := w 5 }
  if space < 32 ∨ bs.length < 32 ∨ natField (w 0) 15 0 ≠ 0x7C3A ∨ natField (w 0) 23 16 ≠ 1 ∨ h.fl = 3 ∨ h.b = 0 ∨
      h.width = 0 ∨ h.width > 32768 ∨ h.height = 0 ∨ natField (w 2) 31 2 ≠ 0 ∨ w 7 ≠ 0 ∨
      (h.raw ∧ (h.pr ≠ 0 ∨ h.pay ≠ h.orig)) ∨ h.pay > space - 32 ∨ w 6 ≠ crc32c (bs.take 24) ∨ bitmapRows h = none then none
  else some h

/-- Read rows from an original (`packed`) or a transformed stream; none where a row byte is not as declared. -/
def readRows (h : CHead) (packed : Bool) : Nat → Option CRow → List Byte → Option (List CRow × List Byte)
  | 0, _, bs => some ([], bs)
  | n + 1, prev, bs =>
    let rb := if h.fl = 2 then (bs.headD 0).toNat else h.fl
    let bs := if h.fl = 2 then bs.drop 1 else bs
    if rb > 1 then none
    else
      let pb := planeBytes h packed
      let planes := (List.range h.np).map (fun i =>
        let x := (bs.drop (i * pb)).take pb
        if packed then unpackBits h.b h.width x
        else
          let lo := x.take h.width
          let zs := if h.b > 8 then (lo.zip (x.drop h.width)).map (fun q => q.1.toNat + 256 * q.2.toNat)
            else lo.map (fun q => q.toNat)
          unresidual h.pr h.b (prev.bind (fun r => r.planes[i]?)) zs)
      let bs := bs.drop (h.np * pb)
      let bm := unpackBits 2 h.width (bs.take ((h.width + 3) / 4))
      let r : CRow :=
        if rb = 1 then { planes := planes, has := true, mask := bm.map (fun v => v.testBit 0), sat := bm.map (fun v => v.testBit 1) }
        else { planes := planes, mask := List.replicate h.width false, sat := List.replicate h.width false }
      match readRows h packed n (some r) (if rb = 1 then bs.drop ((h.width + 3) / 4) else bs) with
      | none => none
      | some q => some (r :: q.1, q.2)

/-- Decode a container held in `space` bytes: its header and rows, or the first error (R390). -/
def decodeContainer (bs : List Byte) (space : Nat) : Except DecErr (CHead × List CRow) :=
  match parseHead bs space with
  | none => .error .headerFault
  | some h =>
    let pay := (bs.drop 32).take h.pay
    let k := (bitmapRows h).getD 0
    let tlen := h.height * ((if h.fl = 2 then 1 else 0) + h.np * planeBytes h false) + k * ((h.width + 3) / 4)
    let body : Except DecErr (List Byte) := if h.raw then .ok pay else inflate pay tlen
    match body with
    | .error e => .error e
    | .ok t =>
      match readRows h h.raw h.height none t with
      | some (rows, []) =>
        let o := if h.raw then pay else original h.fl h.b rows
        if crc32c o = h.crc then .ok (h, rows) else .error .crcMismatch
      | _ => .error .headerFault

end Sys2Proof.Machine
end

