-- ==== Sys2Proof/Machine/RegMap.lean ====
section
/-!
DEFINITION. The register map: what each word of BAR0 holds, how a write acts on each of its bits, and
its reset value, page by page, as the tables of the block chapters give them (R14, R657, R665).
-/

namespace Sys2Proof.Machine

/-- One register, or an array of equal registers: `rw` are the bits stored on write, `sh` the shadow
bits (R660), `w1c` and `w1s` those of R14 (`w1s` within `sh` are taken at a commit, R661), and `clr`
the read-only bits that a write of any value clears (R14). Bits in no mask ignore writes. -/
structure RegRow where
  off : Nat
  stride : Nat := 0
  count : Nat := 1
  step : Nat := 0
  reset : Word := 0
  rw : Word := 0
  sh : Word := 0
  w1c : Word := 0
  w1s : Word := 0
  clr : Word := 0
  deriving DecidableEq, Repr, Inhabited

/-- The registers of the page (R665). -/
def devRows : List RegRow := [
  -- DEV_STEPPING
  { off := 0x100, reset := 0x16400010 },
  -- DEV_LPX_APER
  { off := 0x108, rw := 0xFF },
  -- DEV_BADACC
  { off := 0x10C },
  -- DEV_BADACC_CNT
  { off := 0x110, clr := 0xFFFFFFFF }]

/-- The registers of the page (R66). -/
def clkRows : List RegRow := [
  -- CLK_STAT
  { off := 0x100, w1c := 0x40000000 }]

/-- The registers of the page (R56). -/
def posRows : List RegRow := [
  -- POS_REF
  { off := 0x100, sh := 0x80000F07 },
  -- POS_STN_CFG
  { off := 0x200, stride := 0x20, count := 8, sh := 0xFFFFF },
  -- POS_STN_OFFSET_LO
  { off := 0x204, stride := 0x20, count := 8, sh := 0xFFFFFFFF },
  -- POS_STN_OFFSET_HI
  { off := 0x208, stride := 0x20, count := 8, sh := 0xFFFFFFFF },
  -- POS_CAM_OFFSET
  { off := 0x300, stride := 0x4, count := 16, sh := 0xFFFFFFFF }]

/-- The registers of the page (R655). -/
def bootRows : List RegRow := [
]

/-- The registers of the page (R656). -/
def updRows : List RegRow := [
  -- UPD_CFG
  { off := 0x100, reset := 0x2000C351, rw := 0xE000FFFF },
  -- UPD_OFFSET
  { off := 0x108, rw := 0xFFFFFF },
  -- UPD_LEN
  { off := 0x10C, rw := 0x1FFFF },
  -- UPD_MC_BLOCK_LO
  { off := 0x114, rw := 0xFFFFFFFF },
  -- UPD_MC_BLOCK_HI
  { off := 0x118, rw := 0xFFFFFFFF },
  -- UPD_BUSY_CNT
  { off := 0x11C, clr := 0xFFFFFFFF }]

/-- The registers of the page (R127). -/
def encIncRows : List RegRow := [
  -- ENC_CFG
  { off := 0x100, reset := 0x4000000, rw := 0x2000, sh := 0x8F3F1000, w1s := 0x1000 },
  -- ENC_PITCH_LO
  { off := 0x108, sh := 0xFFFFFFFF },
  -- ENC_PITCH_HI
  { off := 0x10C, sh := 0xFFFFFFFF },
  -- ENC_PRESET_LO
  { off := 0x118, sh := 0xFFFFFFFF },
  -- ENC_PRESET_HI
  { off := 0x11C, sh := 0xFFFFFFFF },
  -- ENC_IDX_CFG
  { off := 0x120, reset := 0x70000004, sh := 0xF8F8FFFF },
  -- ENC_IDX_PERIOD
  { off := 0x124, sh := 0xFFFFFFFF },
  -- ENC_IDX_DEV
  { off := 0x128 },
  -- ENC_IDX_CNT
  { off := 0x12C, clr := 0xFFFFFFFF },
  -- ENC_ERR_CNT
  { off := 0x138, clr := 0xFFFFFFFF },
  -- ENC_SSI_CFG
  { off := 0x140, reset := 0x66000264, sh := 0xFFF8FFFF },
  -- ENC_SSI_STAT
  { off := 0x144, w1c := 0xF, clr := 0xFFFF0000 },
  -- ENC_SSI_TIME
  { off := 0x148, reset := 0xC803E8, sh := 0xFFFFFFFF },
  -- ENC_SSI_JUMP
  { off := 0x14C, reset := 0xFA0, sh := 0xFFFFFFFF },
  -- ENC_SPD_CFG
  { off := 0x150, reset := 0x40657000, sh := 0xFFFFFC00 },
  -- ENC_SPD_PERIOD
  { off := 0x154, reset := 0xFA0, sh := 0xFFFFFFFF },
  -- ENC_SPD_LIM_HI
  { off := 0x164, sh := 0xFFFFFFFF },
  -- ENC_SPD_LIM_LO
  { off := 0x168, sh := 0xFFFFFFFF }]

/-- The registers of the page (R127). -/
def encSsiRows : List RegRow := [
  -- ENC_CFG
  { off := 0x100, reset := 0x4000400, rw := 0x2000, sh := 0x8F3F1000, w1s := 0x1000 },
  -- ENC_PITCH_LO
  { off := 0x108, sh := 0xFFFFFFFF },
  -- ENC_PITCH_HI
  { off := 0x10C, sh := 0xFFFFFFFF },
  -- ENC_PRESET_LO
  { off := 0x118, sh := 0xFFFFFFFF },
  -- ENC_PRESET_HI
  { off := 0x11C, sh := 0xFFFFFFFF },
  -- ENC_IDX_CFG
  { off := 0x120, reset := 0x70000004, sh := 0xF8F8FFFF },
  -- ENC_IDX_PERIOD
  { off := 0x124, sh := 0xFFFFFFFF },
  -- ENC_IDX_DEV
  { off := 0x128 },
  -- ENC_IDX_CNT
  { off := 0x12C, clr := 0xFFFFFFFF },
  -- ENC_ERR_CNT
  { off := 0x138, clr := 0xFFFFFFFF },
  -- ENC_SSI_CFG
  { off := 0x140, reset := 0x66000264, sh := 0xFFF8FFFF },
  -- ENC_SSI_STAT
  { off := 0x144, w1c := 0xF, clr := 0xFFFF0000 },
  -- ENC_SSI_TIME
  { off := 0x148, reset := 0xC803E8, sh := 0xFFFFFFFF },
  -- ENC_SSI_JUMP
  { off := 0x14C, reset := 0xFA0, sh := 0xFFFFFFFF },
  -- ENC_SPD_CFG
  { off := 0x150, reset := 0x40657000, sh := 0xFFFFFC00 },
  -- ENC_SPD_PERIOD
  { off := 0x154, reset := 0xFA0, sh := 0xFFFFFFFF },
  -- ENC_SPD_LIM_HI
  { off := 0x164, sh := 0xFFFFFFFF },
  -- ENC_SPD_LIM_LO
  { off := 0x168, sh := 0xFFFFFFFF }]

/-- The registers of the page (R127). -/
def encRelRows : List RegRow := [
  -- ENC_CFG
  { off := 0x100, reset := 0x800 },
  -- ENC_PITCH_LO
  { off := 0x108, sh := 0xFFFFFFFF },
  -- ENC_PITCH_HI
  { off := 0x10C, sh := 0xFFFFFFFF },
  -- ENC_SPD_CFG
  { off := 0x150, reset := 0x40657000, sh := 0xFFFFFC00 },
  -- ENC_SPD_PERIOD
  { off := 0x154, reset := 0xFA0, sh := 0xFFFFFFFF },
  -- ENC_SPD_LIM_HI
  { off := 0x164, sh := 0xFFFFFFFF },
  -- ENC_SPD_LIM_LO
  { off := 0x168, sh := 0xFFFFFFFF }]

/-- The registers of the page (R129). -/
def cmpRows : List RegRow := [
  -- CMP_CFG
  { off := 0x100, stride := 0x40, count := 24, reset := 0x29B, sh := 0xFE00FFFF, w1s := 0x2000000 },
  -- CMP_POS_FRAC
  { off := 0x104, stride := 0x40, count := 24, sh := 0xFFFFFFFF },
  -- CMP_POS_LO
  { off := 0x108, stride := 0x40, count := 24, sh := 0xFFFFFFFF },
  -- CMP_POS_HI
  { off := 0x10C, stride := 0x40, count := 24, sh := 0xFFFFFFFF },
  -- CMP_SPACING_FRAC
  { off := 0x110, stride := 0x40, count := 24, sh := 0xFFFFFFFF },
  -- CMP_SPACING_INT
  { off := 0x114, stride := 0x40, count := 24, reset := 0x1, sh := 0xFFFFFFFF },
  -- CMP_PHASE_FRAC
  { off := 0x118, stride := 0x40, count := 24, sh := 0xFFFFFFFF },
  -- CMP_PHASE_INT
  { off := 0x11C, stride := 0x40, count := 24, sh := 0xFFFFFFFF },
  -- CMP_MISSED
  { off := 0x12C, stride := 0x40, count := 24, clr := 0xFFFFFFFF },
  -- CMP_HITS
  { off := 0x130, stride := 0x40, count := 24 },
  -- CMP_STAT
  { off := 0x134, stride := 0x40, count := 24, clr := 0xFFFF0000 }]

/-- The registers of the page (R130). -/
def trgRows : List RegRow := [
  -- TRG_CFG
  { off := 0x100, stride := 0x10, count := 16, reset := 0x28, sh := 0xF800FFFF },
  -- TRG_TIMER
  { off := 0x104, stride := 0x10, count := 16, reset := 0x29B, sh := 0xFFFFFFFF },
  -- TRG_DELAY
  { off := 0x108, stride := 0x10, count := 16, sh := 0xFFFF00FF },
  -- TRG_COUNT
  { off := 0x10C, stride := 0x10, count := 16 }]

/-- The registers of the page (R168). -/
def skeinRows : List RegRow := [
  -- SKEIN_CFG
  { off := 0x100, reset := 0x6C000000, sh := 0xFF000000 },
  -- SKEIN_LANEMAP
  { off := 0x104, reset := 0x2C688, sh := 0x3FFFF },
  -- SKEIN_LINE_CFG
  { off := 0x108, reset := 0x4000, sh := 0xF301FFFF },
  -- SKEIN_FILL
  { off := 0x10C, sh := 0xFFFF },
  -- SKEIN_START_WIN
  { off := 0x110, reset := 0xFFFF0000, sh := 0xFFFFFFFF },
  -- SKEIN_WD_TIME
  { off := 0x114, reset := 0x10000, sh := 0xFFFFFFFF },
  -- SKEIN_LINK_STAT
  { off := 0x118, w1c := 0x3F000000 },
  -- SKEIN_CAM_STATUS
  { off := 0x11C },
  -- SKEIN_GPIO
  { off := 0x120 },
  -- SKEIN_COUNTERS
  { off := 0x124, stride := 0x4, count := 14, clr := 0xFFFFFFFF },
  -- SKEIN_CTLE_LOOP_LO
  { off := 0x180, reset := 0x2, sh := 0xFFFFFFFF },
  -- SKEIN_CTLE_LOOP_HI
  { off := 0x184, reset := 0xC, sh := 0xFFFFFFFF },
  -- SKEIN_CTLE_LOOP_STAT
  { off := 0x188, w1c := 0xC },
  -- SKEIN_CTLE_LOOP_PINCNT
  { off := 0x18C, clr := 0xFFFFFFFF },
  -- SKEIN_DFE_LOOP_LO
  { off := 0x190, reset := 0xFFFFFFF0, sh := 0xFFFFFFFF },
  -- SKEIN_DFE_LOOP_HI
  { off := 0x194, reset := 0x10, sh := 0xFFFFFFFF },
  -- SKEIN_DFE_LOOP_STAT
  { off := 0x198, w1c := 0xC },
  -- SKEIN_DFE_LOOP_PINCNT
  { off := 0x19C, clr := 0xFFFFFFFF },
  -- SKEIN_LANE_STAT
  { off := 0x200, stride := 0x20, count := 6 },
  -- SKEIN_LANE_EYE_W
  { off := 0x204, stride := 0x20, count := 6 },
  -- SKEIN_LANE_EYE_Q
  { off := 0x208, stride := 0x20, count := 6 },
  -- SKEIN_LANE_BLK_ERR
  { off := 0x20C, stride := 0x20, count := 6, clr := 0xFFFFFFFF },
  -- SKEIN_LANE_SCAN
  { off := 0x210, stride := 0x20, count := 6 }]

/-- The registers of the page (R170). -/
def waleInRows : List RegRow := [
  -- WALE_IN_SRC
  { off := 0x100, sh := 0xC00F0F00 }]

/-- The registers of the page (R205). -/
def frontRows : List RegRow := [
  -- FRONT_CFG
  { off := 0x100, stride := 0x400, count := 2, sh := 0xF8000000 },
  -- FRONT_DPL_COUNT
  { off := 0x104, stride := 0x400, count := 2, sh := 0x1FFF },
  -- FRONT_CLIP_LO_CNT
  { off := 0x108, stride := 0x400, count := 2, clr := 0xFFFFFFFF },
  -- FRONT_CLIP_HI_CNT
  { off := 0x10C, stride := 0x400, count := 2, clr := 0xFFFFFFFF },
  -- FRONT_DPL_STAT
  { off := 0x110, stride := 0x400, count := 2, clr := 0xFFFF },
  -- FRONT_UNPACK_CNT
  { off := 0x114, stride := 0x400, count := 2, clr := 0xFFFFFFFF }]

/-- The registers of the page (R206). -/
def colorRows : List RegRow := [
  -- COLOR_CFG
  { off := 0x100, stride := 0x400, count := 2, reset := 0x3000000, sh := 0x1FF80000 },
  -- COLOR_SLOFF0
  { off := 0x110, stride := 0x400, count := 2, sh := 0xFFFFFFFF },
  -- COLOR_SLOFF1
  { off := 0x114, stride := 0x400, count := 2, sh := 0xFFFFFFFF },
  -- COLOR_SLOFF2
  { off := 0x118, stride := 0x400, count := 2, sh := 0xFFFFFFFF },
  -- COLOR_SLOFF3
  { off := 0x11C, stride := 0x400, count := 2, sh := 0xFFFFFFFF },
  -- COLOR_WY_RG
  { off := 0x120, stride := 0x400, count := 2, sh := 0xFFFFFFFF },
  -- COLOR_WY_BN
  { off := 0x124, stride := 0x400, count := 2, sh := 0xFFFFFFFF },
  -- COLOR_WY_C
  { off := 0x128, stride := 0x400, count := 2, reset := 0x4000, sh := 0xFFFFFFFF },
  -- COLOR_FEAT0_RG
  { off := 0x130, stride := 0x400, count := 2, sh := 0xFFFFFFFF },
  -- COLOR_FEAT0_BN
  { off := 0x134, stride := 0x400, count := 2, sh := 0xFFFFFFFF },
  -- COLOR_FEAT0_C
  { off := 0x138, stride := 0x400, count := 2, sh := 0xFFFFFFFF },
  -- COLOR_FEAT1_RG
  { off := 0x140, stride := 0x400, count := 2, sh := 0xFFFFFFFF },
  -- COLOR_FEAT1_BN
  { off := 0x144, stride := 0x400, count := 2, sh := 0xFFFFFFFF },
  -- COLOR_FEAT1_C
  { off := 0x148, stride := 0x400, count := 2, sh := 0xFFFFFFFF },
  -- COLOR_FEAT2_RG
  { off := 0x150, stride := 0x400, count := 2, sh := 0xFFFFFFFF },
  -- COLOR_FEAT2_BN
  { off := 0x154, stride := 0x400, count := 2, sh := 0xFFFFFFFF },
  -- COLOR_FEAT2_C
  { off := 0x158, stride := 0x400, count := 2, sh := 0xFFFFFFFF },
  -- COLOR_SUBST_CNT
  { off := 0x164, stride := 0x400, count := 2, clr := 0xFFFFFFFF },
  -- COLOR_ALIGNGAP_CNT
  { off := 0x168, stride := 0x400, count := 2, clr := 0xFFFFFFFF },
  -- COLOR_STAT_CFG
  { off := 0x170, stride := 0x400, count := 2, reset := 0x21800000, sh := 0xFFC0FFFF }]

/-- The registers of the page (R237). -/
def geomRows : List RegRow := [
  -- GEOM_CFG
  { off := 0x100, stride := 0x400, count := 2, reset := 0xEE800000, sh := 0xFFF80000 },
  -- GEOM_OUT_BASE
  { off := 0x104, stride := 0x400, count := 2, sh := 0xFFFFF },
  -- GEOM_OUT_LEN
  { off := 0x108, stride := 0x400, count := 2, reset := 0x4000, sh := 0x1FFFF },
  -- GEOM_OWN_LO
  { off := 0x10C, stride := 0x400, count := 2, sh := 0xFFFFF },
  -- GEOM_OWN_HI
  { off := 0x110, stride := 0x400, count := 2, reset := 0x3FFF, sh := 0xFFFFF },
  -- GEOM_SEAM
  { off := 0x114, stride := 0x400, count := 2, sh := 0x3FF },
  -- GEOM_HOLD
  { off := 0x118, stride := 0x400, count := 2, sh := 0xFFFFF },
  -- GEOM_STAT
  { off := 0x11C, stride := 0x400, count := 2 },
  -- GEOM_SUBST_CNT
  { off := 0x120, stride := 0x400, count := 2, clr := 0xFFFFFFFF },
  -- GEOM_RANGE_CNT
  { off := 0x124, stride := 0x400, count := 2, clr := 0xFFFFFFFF },
  -- GEOM_STAGGER_GAP_CNT
  { off := 0x128, stride := 0x400, count := 2, clr := 0xFFFFFFFF },
  -- GEOM_TIMEOUT_GAP_CNT
  { off := 0x12C, stride := 0x400, count := 2, clr := 0xFFFFFFFF }]

/-- The registers of the page (R271). -/
def segRows : List RegRow := [
  -- SEG_CFG
  { off := 0x100, stride := 0x400, count := 2, reset := 0x60200000, sh := 0xFFF80000, w1s := 0x80000 },
  -- SEG_BG_CFG
  { off := 0x104, stride := 0x400, count := 2, reset := 0x83100002, sh := 0xFFFFF007 },
  -- SEG_FREEZE
  { off := 0x108, stride := 0x400, count := 2, reset := 0x10, sh := 0xFFFF00FF },
  -- SEG_MORPH
  { off := 0x10C, stride := 0x400, count := 2, reset := 0x33000011, sh := 0xFF000777 },
  -- SEG_STAT
  { off := 0x110, stride := 0x400, count := 2 },
  -- SEG_CREDIT
  { off := 0x114, stride := 0x400, count := 2 },
  -- SEG_RUN_CNT
  { off := 0x118, stride := 0x400, count := 2 },
  -- SEG_SATBLK_CNT
  { off := 0x11C, stride := 0x400, count := 2, clr := 0xFFFFFFFF },
  -- SEG_LEARN_GAP_CNT
  { off := 0x120, stride := 0x400, count := 2, clr := 0xFFFFFFFF },
  -- SEG_LATE_SEED_CNT
  { off := 0x124, stride := 0x400, count := 2, clr := 0xFFFFFFFF },
  -- SEG_FORCED_CNT
  { off := 0x128, stride := 0x400, count := 2, clr := 0xFFFFFFFF },
  -- SEG_THR0_INIT
  { off := 0x140, stride := 0x400, count := 2, reset := 0x800, sh := 0xFFFF },
  -- SEG_THR1_INIT
  { off := 0x150, stride := 0x400, count := 2, reset := 0x800, sh := 0xFFFF },
  -- SEG_THR2_INIT
  { off := 0x160, stride := 0x400, count := 2, reset := 0x800, sh := 0xFFFF },
  -- SEG_THR0_ADAPT
  { off := 0x144, stride := 0x400, count := 2, reset := 0x6000040, sh := 0xFFFF1FFF },
  -- SEG_THR1_ADAPT
  { off := 0x154, stride := 0x400, count := 2, reset := 0x6000040, sh := 0xFFFF1FFF },
  -- SEG_THR2_ADAPT
  { off := 0x164, stride := 0x400, count := 2, reset := 0x6000040, sh := 0xFFFF1FFF },
  -- ATH_DARK_LO
  { off := 0x900, stride := 0x30, count := 2, reset := 0x100, sh := 0xFFFFFFFF },
  -- ATH_DARK_HI
  { off := 0x904, stride := 0x30, count := 2, reset := 0x4000, sh := 0xFFFFFFFF },
  -- ATH_BRIGHT_LO
  { off := 0x910, stride := 0x30, count := 2, reset := 0x100, sh := 0xFFFFFFFF },
  -- ATH_BRIGHT_HI
  { off := 0x914, stride := 0x30, count := 2, reset := 0x4000, sh := 0xFFFFFFFF },
  -- ATH_TEX_LO
  { off := 0x920, stride := 0x30, count := 2, reset := 0x80, sh := 0xFFFFFFFF },
  -- ATH_TEX_HI
  { off := 0x924, stride := 0x30, count := 2, reset := 0x4000, sh := 0xFFFFFFFF },
  -- ATH_STAT
  { off := 0x908, stride := 0x10, count := 6, w1c := 0xC },
  -- ATH_PINCNT
  { off := 0x90C, stride := 0x10, count := 6, clr := 0xFFFFFFFF },
  -- BG_LOOP_LO
  { off := 0x980, stride := 0x10, count := 2, sh := 0xFFFFFFFF },
  -- BG_LOOP_HI
  { off := 0x984, stride := 0x10, count := 2, reset := 0xFFFF, sh := 0xFFFFFFFF },
  -- BG_LOOP_STAT
  { off := 0x988, stride := 0x10, count := 2, w1c := 0xC },
  -- BG_LOOP_PINCNT
  { off := 0x98C, stride := 0x10, count := 2, clr := 0xFFFFFFFF }]

/-- The registers of the page (R207). -/
def coldescRows : List RegRow := [
  -- COLDESC_CFG
  { off := 0x100, stride := 0x10, count := 8, sh := 0x3C000000 },
  -- COLDESC00_MAP_LO
  { off := 0x104, reset := 0x5, sh := 0xFFFFFF },
  -- COLDESC_MAP_LO
  { off := 0x114, stride := 0x10, count := 7, sh := 0xFFFFFF },
  -- COLDESC_MAP_HI
  { off := 0x108, stride := 0x10, count := 8, sh := 0xFFFFFF }]

/-- The registers of the page (R239). -/
def stitchRows : List RegRow := [
  -- STITCH_CFG
  { off := 0x100, sh := 0xFFFFF },
  -- STITCH_WAIT
  { off := 0x104, reset := 0x100000, sh := 0xFFFFFFFF },
  -- STITCH_STAT
  { off := 0x108 },
  -- STITCH_TIMEOUT_CNT
  { off := 0x10C, clr := 0xFFFFFFFF },
  -- STITCH_STN_UNCOV
  { off := 0x120, stride := 0x4, count := 8 }]

/-- The registers of the page (R321). -/
def trkRows : List RegRow := [
  -- TRK_CFG
  { off := 0x100, sh := 0x80000000 },
  -- TRK_COUNTERS
  { off := 0x120, stride := 0x4, count := 12, clr := 0xFFFFFFFF },
  -- TRK_SEAM_CFG
  { off := 0x160, reset := 0x100, sh := 0xFF3FFFFF },
  -- TRK_SEAM_STAT
  { off := 0x164, w1c := 0xC0000000 },
  -- TRK_CLASS_BANK
  { off := 0x170, sh := 0xFF },
  -- TRK_PEEK
  { off := 0x180, rw := 0x1FFFFF },
  -- TRK_PEEK_D
  { off := 0x190, stride := 0x4, count := 16 },
  -- TRK_STN_CFG
  { off := 0x200, stride := 0x20, count := 8, reset := 0x40000002, sh := 0xF800FFFF },
  -- TRK_STN_PARK
  { off := 0x204, stride := 0x20, count := 8, reset := 0x40, sh := 0xFFFF },
  -- TRK_STN_FRONT_COL
  { off := 0x208, stride := 0x20, count := 8, sh := 0xFFFFF },
  -- TRK_STN_FRONT_LEN
  { off := 0x20C, stride := 0x20, count := 8, reset := 0x4000, sh := 0x1FFFFF },
  -- TRK_STN_FRONT_BASE
  { off := 0x210, stride := 0x20, count := 8, step := 0x4000, sh := 0x1FFFFF }]

/-- The registers of the page (R368). -/
def borderRows : List RegRow := [
  -- BORDER_CFG
  { off := 0x100, rw := 0xE0000000 },
  -- BORDER_REFINE_TIMEOUT
  { off := 0x110, reset := 0x64, rw := 0x3FF },
  -- BORDER_REFINE_BASE_LO
  { off := 0x11C, rw := 0xFFFFFFC0 },
  -- BORDER_REFINE_BASE_HI
  { off := 0x120, rw := 0xFFFFFFFF },
  -- BORDER_REFINE_CONS
  { off := 0x128, rw := 0xFFFFFFFF },
  -- BORDER_COUNTERS
  { off := 0x140, stride := 0x4, count := 6, clr := 0xFFFFFFFF },
  -- BORDER_PATCH_CFG
  { off := 0x160, reset := 0x400000, rw := 0xFFFCFF00 },
  -- BORDER_PATCH_CLASS
  { off := 0x180, stride := 0x4, count := 8, rw := 0xFFFFFFFF },
  -- BORDER_REFINE_CLASS
  { off := 0x1A0, stride := 0x4, count := 8, rw := 0xFFFFFFFF },
  -- BORDER_DEST_CFG
  { off := 0x200, stride := 0x40, count := 3, reset := 0x7E000000, rw := 0xFEFF0000 },
  -- BORDER_DEST03_CFG
  { off := 0x2C0, reset := 0x7C000000, rw := 0xFCFF003F },
  -- BORDER_DEST_LOSS_CNT
  { off := 0x20C, stride := 0x40, count := 4, clr := 0xFFFFFFFF },
  -- BORDER_DEST_SRC_IP
  { off := 0x254, stride := 0x40, count := 2, rw := 0xFFFFFFFF },
  -- BORDER_DEST_DST_IP
  { off := 0x258, stride := 0x40, count := 2, rw := 0xFFFFFFFF },
  -- BORDER_DEST_PORTS
  { off := 0x25C, stride := 0x40, count := 2, reset := 0xC350C350, rw := 0xFFFFFFFF },
  -- BORDER_DEST_DST_MAC_LO
  { off := 0x260, stride := 0x40, count := 2, rw := 0xFFFFFFFF },
  -- BORDER_DEST_DST_MAC_HI
  { off := 0x264, stride := 0x40, count := 2, rw := 0xFFFFFFFF },
  -- BORDER_DEST_STREAM
  { off := 0x268, stride := 0x40, count := 2, reset := 0x641600, rw := 0xFFFFFF3F },
  -- BORDER_DEST_HEARTBEAT
  { off := 0x26C, stride := 0x40, count := 2, reset := 0x64, rw := 0xFFFF },
  -- BORDER_DEST_RESEND_BAD_CNT
  { off := 0x270, stride := 0x40, count := 2, clr := 0xFFFFFFFF }]

/-- The registers of the page (R370). -/
def hifRows : List RegRow := [
  -- HIF_RING_BASE_LO
  { off := 0x100, stride := 0x40, count := 5, rw := 0xFFFFF000 },
  -- HIF_RING_BASE_HI
  { off := 0x104, stride := 0x40, count := 5, rw := 0xFFFFFFFF },
  -- HIF_RING_CFG
  { off := 0x108, stride := 0x40, count := 2, rw := 0xC000001F },
  -- HIF_RING02_CFG
  { off := 0x188, rw := 0xC030001F },
  -- HIF_RING34_CFG
  { off := 0x1C8, stride := 0x40, count := 2, rw := 0xC000001F },
  -- HIF_RING_WB_LO
  { off := 0x114, stride := 0x40, count := 5, rw := 0xFFFFFFFC },
  -- HIF_RING_WB_HI
  { off := 0x118, stride := 0x40, count := 5, rw := 0xFFFFFFFF },
  -- HIF_RING_STAT
  { off := 0x11C, stride := 0x40, count := 3, w1c := 0x60000000 },
  -- HIF_RING03_STAT
  { off := 0x1DC, w1c := 0x70000000 },
  -- HIF_RING04_STAT
  { off := 0x21C, w1c := 0x60000000 },
  -- HIF_RING_COAL
  { off := 0x120, stride := 0x40, count := 3, reset := 0x10000, rw := 0xFFFFFFFF },
  -- HIF_RING04_COAL
  { off := 0x220, reset := 0x10000, rw := 0xFFFFFFFF }]

/-- The registers of the page (R406). -/
def histRows : List RegRow := [
  -- HIST_CFG
  { off := 0x100, rw := 0x80000000 },
  -- HIST_DECERR_CNT
  { off := 0x110, stride := 0x4, count := 5, clr := 0xFFFFFFFF },
  -- HIST_C_CFG
  { off := 0x400, stride := 0x40, count := 32, reset := 0x70000000, sh := 0xF0000000 },
  -- HIST_C_RING
  { off := 0x404, stride := 0x40, count := 32, sh := 0x1FFFF },
  -- HIST_C_SIZE
  { off := 0x408, stride := 0x40, count := 32, reset := 0x400, sh := 0x3FFFF },
  -- HIST_C_IDX
  { off := 0x40C, stride := 0x40, count := 32, reset := 0x10000000, sh := 0x1F01FFFF },
  -- HIST_C_RAW_CNT
  { off := 0x420, stride := 0x40, count := 32, clr := 0xFFFFFFFF },
  -- HIST_C_BYPASS_CNT
  { off := 0x424, stride := 0x40, count := 32, clr := 0xFFFFFFFF },
  -- HIST_C_DROP_CNT
  { off := 0x428, stride := 0x40, count := 32, clr := 0xFFFFFFFF }]

/-- The registers of the page (R438). -/
def lpxRows : List RegRow := [
  -- LPX_CFG
  { off := 0x100, reset := 0x18000000, rw := 0xF8000000 },
  -- LPX_OP
  { off := 0x104, rw := 0x3, w1c := 0x40000000 },
  -- LPX_STAT
  { off := 0x108, reset := 0x7, w1c := 0xF0000000 },
  -- LPX_ADDRMAP
  { off := 0x110, stride := 0x4, count := 9, rw := 0x1FFFF },
  -- LPX_CLASS0
  { off := 0x140, stride := 0x4, count := 2, reset := 0xC80004, rw := 0xFFFF00FF },
  -- LPX_CLASS2
  { off := 0x148, reset := 0x7D00004, rw := 0xFFFF00FF },
  -- LPX_CLASS3
  { off := 0x14C, reset := 0x4E200004, rw := 0xFFFF00FF },
  -- LPX_PAGE
  { off := 0x150, reset := 0xC8, rw := 0xFFFF },
  -- LPX_REF
  { off := 0x154, reset := 0x640008, rw := 0xFFFF000F },
  -- LPX_PASR
  { off := 0x158, reset := 0xFF, rw := 0x1FF },
  -- LPX_TRAIN
  { off := 0x15C, reset := 0xFA0, rw := 0xFFFF },
  -- LPX_REFM_LO
  { off := 0x180, sh := 0xFFFFFFFF },
  -- LPX_REFM_HI
  { off := 0x184, reset := 0x4, sh := 0xFFFFFFFF },
  -- LPX_REFM_STAT
  { off := 0x188, w1c := 0xC },
  -- LPX_REFM_PINCNT
  { off := 0x18C, clr := 0xFFFFFFFF },
  -- LPX_TIM_A
  { off := 0x200, stride := 0x20, count := 3, sh := 0xFFFFFFFF },
  -- LPX_TIM_B
  { off := 0x204, stride := 0x20, count := 3, sh := 0xFFFFFFFF },
  -- LPX_TIM_C
  { off := 0x208, stride := 0x20, count := 3, sh := 0xFFFFFFFF },
  -- LPX_TIM0_D
  { off := 0x20C, reset := 0x2580, sh := 0xFFFF0000 },
  -- LPX_TIM1_D
  { off := 0x22C, reset := 0x2155, sh := 0xFFFF0000 },
  -- LPX_TIM2_D
  { off := 0x24C, reset := 0x1900, sh := 0xFFFF0000 }]

/-- The registers of the page (R440). -/
def lpxChRows : List RegRow := [
  -- LPXC_STAT
  { off := 0x100, reset := 0x80000000 },
  -- LPXC_COUNTERS
  { off := 0x108, stride := 0x4, count := 5, clr := 0xFFFFFFFF },
  -- LPXC_LECC_CNT
  { off := 0x11C, clr := 0xFFFFFFFF },
  -- LPXC_EYE
  { off := 0x140, stride := 0x4, count := 8 }]

/-- The registers of the page (R441). -/
def qdrRows : List RegRow := [
  -- QDR_CFG
  { off := 0x100, reset := 0x40000000, rw := 0xC0000000 }]

/-- The registers of the page (R441). -/
def qdrChRows : List RegRow := [
  -- QDRC_STAT
  { off := 0x100, reset := 0x80000000 },
  -- QDRC_COUNTERS
  { off := 0x104, stride := 0x4, count := 4, clr := 0xFFFFFFFF },
  -- QDRC_EYE
  { off := 0x140, stride := 0x4, count := 16 }]

/-- The registers of the page (R489). -/
def fabRows : List RegRow := [
  -- FAB_CFG
  { off := 0x100, rw := 0xFFFFC000 },
  -- FAB_STAT
  { off := 0x104, w1c := 0x1000000 },
  -- FAB_MEMBERS
  { off := 0x110, stride := 0x4, count := 2, rw := 0xFFFFFFFF },
  -- FAB_TIMING
  { off := 0x128, reset := 0x7D003E8, rw := 0xFFFFFFFF },
  -- FAB_EPOCH_LEAD
  { off := 0x12C, reset := 0x40, rw := 0xFFFF },
  -- FAB_EPOCH_ID
  { off := 0x130, reset := 0x1, rw := 0xFFFFFFFF },
  -- FAB_EPOCH_LINE
  { off := 0x134, stride := 0x4, count := 2, rw := 0xFFFFFFFF },
  -- FAB_EPOCH_GO
  { off := 0x13C, reset := 0x1, rw := 0x7 },
  -- FAB_COUNTERS
  { off := 0x150, stride := 0x4, count := 2, clr := 0xFFFFFFFF },
  -- FAB_RELAY_CFG
  { off := 0x160, stride := 0x4, count := 2, reset := 0x190, rw := 0xFFE0FFFF },
  -- FAB_MESH
  { off := 0x170, rw := 0x77 },
  -- FAB_ROUTE
  { off := 0x200, stride := 0x4, count := 48, reset := 0xFFFFFFFF, rw := 0xFFFFFFFF },
  -- FAB_BCAST
  { off := 0x2C0, stride := 0x4, count := 6, rw := 0x3F }]

/-- The registers of the page (R491). -/
def fabPortRows : List RegRow := [
  -- FABP_CFG
  { off := 0x100, reset := 0x40000000, rw := 0xFE000000 },
  -- FABP_STAT
  { off := 0x104, w1c := 0xF00000 },
  -- FABP_COUNTERS
  { off := 0x110, stride := 0x4, count := 5, clr := 0xFFFFFFFF },
  -- FABP_CTLE_LOOP_LO
  { off := 0x180, reset := 0x4, rw := 0xFFFFFFFF },
  -- FABP_CTLE_LOOP_HI
  { off := 0x184, reset := 0x14, rw := 0xFFFFFFFF },
  -- FABP_CTLE_LOOP_STAT
  { off := 0x188, w1c := 0xC },
  -- FABP_CTLE_LOOP_PINCNT
  { off := 0x18C, clr := 0xFFFFFFFF },
  -- FABP_DFE_LOOP_LO
  { off := 0x190, reset := 0xFFFFFFE8, rw := 0xFFFFFFFF },
  -- FABP_DFE_LOOP_HI
  { off := 0x194, reset := 0x18, rw := 0xFFFFFFFF },
  -- FABP_DFE_LOOP_STAT
  { off := 0x198, w1c := 0xC },
  -- FABP_DFE_LOOP_PINCNT
  { off := 0x19C, clr := 0xFFFFFFFF },
  -- FABP_LANE_STAT
  { off := 0x200, stride := 0x20, count := 4 },
  -- FABP_LANE_EYE_W
  { off := 0x204, stride := 0x20, count := 4 },
  -- FABP_LANE_EYE_Q
  { off := 0x208, stride := 0x20, count := 4 },
  -- FABP_LANE_BLK_ERR
  { off := 0x20C, stride := 0x20, count := 4, clr := 0xFFFFFFFF },
  -- FABP_LANE_SCAN
  { off := 0x210, stride := 0x20, count := 4 }]

/-- The registers of the page (R512). -/
def timeRows : List RegRow := [
  -- TIME_CFG
  { off := 0x100, reset := 0x3E8, rw := 0xFFFFFFFF },
  -- TIME_STAT
  { off := 0x104, w1c := 0x1A000000 },
  -- TIME_FREQ
  { off := 0x118, rw := 0xFFFFFFFF },
  -- TIME_SLEW_MAX
  { off := 0x11C, reset := 0x20C49B, rw := 0x3FFFFF },
  -- TIME_SET_NS
  { off := 0x128, rw := 0x3FFFFFFF },
  -- TIME_SET_SEC_LO
  { off := 0x12C, rw := 0xFFFFFFFF },
  -- TIME_SET_SEC_HI
  { off := 0x130, rw := 0xFFFFFFFF },
  -- TIME_SET_FRAC
  { off := 0x134, rw := 0xFFFF },
  -- TIME_STEP_LO
  { off := 0x13C, rw := 0xFFFFFFFF },
  -- TIME_STEP_HI
  { off := 0x140, rw := 0xFFFFFFFF },
  -- TIME_UPPER
  { off := 0x144, rw := 0xFFFF },
  -- TIME_COUNTERS
  { off := 0x148, stride := 0x4, count := 2, clr := 0xFFFFFFFF },
  -- TIME_SRC_TIMEOUT
  { off := 0x150, reset := 0xBB8, rw := 0xFFFF }]

/-- The registers of the page (R513). -/
def ptpRows : List RegRow := [
  -- PTP_CFG
  { off := 0x100, reset := 0x20000000, rw := 0xFE7F0000 },
  -- PTP_INTERVALS
  { off := 0x104, reset := 0xFD01FD03, rw := 0xFFFFFFFF },
  -- PTP_GM_QUALITY
  { off := 0x108, reset := 0x8080F8FE, rw := 0xFFFFFFFF },
  -- PTP_STAT
  { off := 0x10C, reset := 0x64, rw := 0xFFFF, w1c := 0x20000000 },
  -- PTP_LAT
  { off := 0x120, stride := 0x10, count := 2, rw := 0xFFFFFFFF },
  -- PTP_TC_FWD_CNT
  { off := 0x124, stride := 0x10, count := 2, clr := 0xFFFFFFFF },
  -- PTP_TC_DROP_CNT
  { off := 0x128, stride := 0x10, count := 2, clr := 0xFFFFFFFF }]

/-- The registers of the page (R542). -/
def pairRows : List RegRow := [
  -- PAIR_CFG
  { off := 0x100, reset := 0x32000000, rw := 0xFF800000 },
  -- PAIR_STAT
  { off := 0x104, w1c := 0xC00000 },
  -- PAIR_SWAP_LINE
  { off := 0x10C, stride := 0x4, count := 2, rw := 0xFFFFFFFF },
  -- PAIR_TIMING
  { off := 0x114, reset := 0x1414140A, rw := 0xFFFFFFFF },
  -- PAIR_TIME_TOL
  { off := 0x118, reset := 0x32, rw := 0xFFFF },
  -- PAIR_CU_BASE
  { off := 0x130, rw := 0x1FFFF },
  -- PAIR_CU_SIZE
  { off := 0x134, reset := 0x1000, rw := 0x1FFFF },
  -- PAIR_JOIN_TIMEOUT
  { off := 0x138, reset := 0x2710, rw := 0xFFFF },
  -- PAIR_COUNTERS
  { off := 0x140, stride := 0x4, count := 7, clr := 0xFFFFFFFF }]

/-- The registers of the page (R578). -/
def wkrRows : List RegRow := [
  -- WKR_STAT
  { off := 0x100, w1c := 0xE0000000 },
  -- WKR_GRP_STAT
  { off := 0x104, reset := 0xFFFF, rw := 0xFFFF },
  -- WKR_PSEL
  { off := 0x180, stride := 0x4, count := 96, reset := 0xFFFF, rw := 0xFFFF },
  -- WKR_MAT
  { off := 0x300, stride := 0x4, count := 384, rw := 0xFFFFFFFF },
  -- WKR_CSEL_CELL
  { off := 0x900, stride := 0x4, count := 32, rw := 0xF0000000 },
  -- WKR_CSEL
  { off := 0x980, stride := 0x4, count := 64, rw := 0xF0000FFF },
  -- WKR_GRP_CTRL
  { off := 0xA80, stride := 0x8, count := 16, rw := 0x80007F7F },
  -- WKR_GRP_CNT
  { off := 0xA84, stride := 0x8, count := 16, clr := 0xFFFFFFFF },
  -- WKR_CELL_CFG
  { off := 0xB00, stride := 0x10, count := 32, rw := 0x4FFFFF },
  -- WKR_CELL_SEL
  { off := 0xB04, stride := 0x10, count := 32, reset := 0x5F5F5F, rw := 0x7F7F7F },
  -- WKR_CELL_STAT
  { off := 0xB08, stride := 0x10, count := 32, clr := 0xFFFF },
  -- WKR_CNT
  { off := 0xD00, stride := 0x4, count := 96, clr := 0xFFFFFFFF }]

/-- The registers of the page (R579). -/
def intcRows : List RegRow := [
  -- INTC_VBASE_LO
  { off := 0x100, stride := 0x20, count := 4, rw := 0xFFFFFFF0 },
  -- INTC_VBASE_HI
  { off := 0x104, stride := 0x20, count := 4, rw := 0xFFFFFFFF },
  -- INTC_STRAY_CNT
  { off := 0x110, stride := 0x20, count := 5, clr := 0xFFFFFFFF },
  -- INTC_STRAY_LAST
  { off := 0x114, stride := 0x20, count := 5 },
  -- INTC_STAT
  { off := 0x1A0, w1c := 0x80000000 },
  -- INTC_CFG
  { off := 0x300, stride := 0x4, count := 512, reset := 0x8, rw := 0xFFC000FF }]

/-- The registers of the page (R580). -/
def intcStRows : List RegRow := [
  -- INTC_STAT word of each source
  { off := 0x100, stride := 0x4, count := 512, clr := 0xFF }]

/-- The registers of the page (R581). -/
def pwrRows : List RegRow := [
  -- PWR_STAT
  { off := 0x104, w1c := 0x18000000 },
  -- PWR_WAKE_EN
  { off := 0x108, reset := 0x3, rw := 0xF },
  -- PWR_WAKE_PEND
  { off := 0x10C, w1c := 0xF },
  -- PWR_TIMER
  { off := 0x110, rw := 0xFFFFFFFF },
  -- PWR_MOTION
  { off := 0x114, reset := 0x10, rw := 0xFFFFF },
  -- PWR_ABORT_CNT
  { off := 0x118, clr := 0xFFFFFFFF }]

/-- The registers of the page (R617). -/
def thermRows : List RegRow := [
  -- THERM_CFG
  { off := 0x100, reset := 0x6964, rw := 0xFFFF },
  -- THERM_DWELL
  { off := 0x110, reset := 0xA, rw := 0xFFFF },
  -- THERM_TAU
  { off := 0x114, reset := 0x6, rw := 0xF },
  -- THERM_THR_LO
  { off := 0x120, rw := 0xFFFFFFFF },
  -- THERM_THR_HI
  { off := 0x124, reset := 0x4, rw := 0xFFFFFFFF },
  -- THERM_THR_STAT
  { off := 0x128, w1c := 0xC },
  -- THERM_THR_PINCNT
  { off := 0x12C, clr := 0xFFFFFFFF },
  -- THERM_PLIM
  { off := 0x130, stride := 0x4, count := 4, reset := 0x240, rw := 0xFFFF },
  -- THERM_PLIM_D4
  { off := 0x140, reset := 0x3C0, rw := 0xFFFF },
  -- THERM_PLIM_PKG
  { off := 0x144, reset := 0xD20, rw := 0xFFFF },
  -- THERM_POWER_PKG
  { off := 0x148 },
  -- THERM_RTH
  { off := 0x150, stride := 0x4, count := 5, reset := 0x200, rw := 0xFFFF }]

/-- The registers of the page (R618). -/
def avsRows : List RegRow := [
  -- AVS_MARGIN
  { off := 0x104, stride := 0x40, count := 5, reset := 0x40C06, rw := 0xFFFFFF },
  -- AVS_LOOP_LO
  { off := 0x110, stride := 0x40, count := 5, reset := 0x14, rw := 0xFFFFFFFF },
  -- AVS_LOOP_HI
  { off := 0x114, stride := 0x40, count := 5, reset := 0x48, rw := 0xFFFFFFFF },
  -- AVS_LOOP_STAT
  { off := 0x118, stride := 0x40, count := 5, w1c := 0xC },
  -- AVS_LOOP_PINCNT
  { off := 0x11C, stride := 0x40, count := 5, clr := 0xFFFFFFFF },
  -- AVS_AGE_BASE
  { off := 0x124, stride := 0x40, count := 5, rw := 0xFFFF }]

/-- The registers of the page (R619). -/
def calRows : List RegRow := [
  -- CAL_CFG
  { off := 0x100, reset := 0x80000008, rw := 0x8000003F },
  -- CAL_COUNTERS
  { off := 0x10C, stride := 0x4, count := 2, clr := 0xFFFFFFFF },
  -- CAL_DL
  { off := 0x140, stride := 0x4, count := 16 }]

/-- The registers of the page (R620). -/
def monRows : List RegRow := [
  -- MON_CFG
  { off := 0x100, stride := 0x20, count := 16, rw := 0xC0FFF000 },
  -- MON_BASE
  { off := 0x104, stride := 0x20, count := 16, rw := 0xFFFFFFFF },
  -- MON_COUNT
  { off := 0x110, stride := 0x20, count := 16, clr := 0xFFFFFFFF },
  -- MON_LOST
  { off := 0x114, stride := 0x20, count := 16, clr := 0xFFFFFFFF },
  -- MON_BIN_SEL
  { off := 0x300, rw := 0xF }]

/-- The registers of the page (R621). -/
def fltRows : List RegRow := [
  -- FLT_CLS01_CFG
  { off := 0x100, stride := 0x10, count := 2, reset := 0x83002710, rw := 0x8FFFFFFF },
  -- FLT_CLS2_CFG
  { off := 0x120, reset := 0x8300EA60, rw := 0x8FFFFFFF },
  -- FLT_CLS3_CFG
  { off := 0x130, reset := 0x88002710, rw := 0x8FFFFFFF },
  -- FLT_LASTING_CNT
  { off := 0x104, stride := 0x10, count := 4, clr := 0xFFFFFFFF },
  -- FLT_OVF_CNT
  { off := 0x108, stride := 0x10, count := 4, clr := 0xFFFFFFFF },
  -- FLT_LAST_ADDR
  { off := 0x10C, stride := 0x10, count := 4 },
  -- FLT_SPARE
  { off := 0x180, stride := 0x4, count := 5 }]

/-- The registers of the page (R622). -/
def errcRows : List RegRow := [
  -- ERRC_CFG
  { off := 0x100, reset := 0x2, rw := 0x7 },
  -- ERRC_COUNTERS
  { off := 0x190, stride := 0x4, count := 2, clr := 0xFFFFFFFF },
  -- ERRC_CNT
  { off := 0x200, stride := 0x4, count := 64, clr := 0xFFFFFFFF }]

/-- The registers of the page (R623). -/
def snapRows : List RegRow := [
  -- SNAP_STAT
  { off := 0x104, w1c := 0x40000000 },
  -- SNAP_LOST_CNT
  { off := 0x108, clr := 0xFFFFFFFF }]

/-- What BLKID, CAPS and the interrupt map say of a page (R657, R665, R544). `source` is 255 for a page
that is no interrupt source. Which pages set CAPS.ERR is read from the causes of R614 (DEDUCED, log 6). -/
structure PageInfo where
  typ : Nat
  inst : Nat := 0
  source : Nat := 255
  evt : Word := 0
  err : Bool := false
  rows : List RegRow
  deriving DecidableEq, Repr, Inhabited

/-- WALEww_IN holds PORT_A and PORT_B, whose reset value is the wale's own number (R170). -/
def waleInRowsOf (w : Nat) : List RegRow :=
  [{ off := 0x100, sh := 0xC00F0F00, reset := BitVec.ofNat 32 (w <<< 16 + w <<< 8) }]

/-- The pages of wale `w` by their number within the wale (R665). -/
def walePage (w k : Nat) : Option PageInfo :=
  match k with
  | 0 => some { typ := 0x30, inst := w, rows := waleInRowsOf w }
  | 1 => some { typ := 0x31, inst := w, source := 16 + w, evt := 0x1F1F, err := true, rows := frontRows }
  | 2 => some { typ := 0x32, inst := w, source := 32 + w, evt := 0x3F, rows := colorRows }
  | 3 => some { typ := 0x33, inst := w, source := 48 + w, evt := 0x3F, err := true, rows := geomRows }
  | 4 => some { typ := 0x34, inst := w, source := 64 + w, evt := 0x3F3F, err := true, rows := segRows }
  | _ => none

/-- The page at 4 KiB page number `pg` of BAR0; every other page is unmapped (R665). -/
def pageInfo (pg : Nat) : Option PageInfo :=
  if pg < 0x10 then
    match pg with
    | 0 => some { typ := 0x01, rows := devRows }
    | 1 => some { typ := 0x02, err := true, rows := clkRows }
    | 2 => some { typ := 0x03, err := true, rows := posRows }
    | 3 => some { typ := 0x04, rows := bootRows }
    | 4 => some { typ := 0x05, rows := updRows }
    | _ => none
  else if pg < 0x14 then
    some { typ := 0x10, inst := pg - 0x10, source := 80 + (pg - 0x10), evt := 0x1FFF, err := true,
           rows := if pg = 0x10 then { off := 0x180, reset := 1, rw := 3 } :: encIncRows else encIncRows }
  else if pg < 0x16 then
    some { typ := 0x10, inst := pg - 0x10, source := 80 + (pg - 0x10), evt := 0x1FFF, err := true, rows := encSsiRows }
  else if pg < 0x18 then
    some { typ := 0x10, inst := pg - 0x10, source := 80 + (pg - 0x10), evt := 0x1FFF, err := true, rows := encRelRows }
  else if pg = 0x18 then some { typ := 0x11, source := 88, evt := 0xFFFFFF, rows := cmpRows }
  else if pg = 0x19 then some { typ := 0x12, source := 89, evt := 0xFFFF, rows := trgRows }
  else if 0x20 ≤ pg ∧ pg < 0x30 then
    some { typ := 0x20, inst := pg - 0x20, source := pg - 0x20, evt := 0xFFFF, rows := skeinRows }
  else if 0x100 ≤ pg ∧ pg < 0x200 then walePage ((pg - 0x100) / 16) (pg % 16)
  else if 0x211 ≤ pg ∧ pg < 0x221 then some { typ := 0x51, inst := pg - 0x211, rows := lpxChRows }
  else if 0x229 ≤ pg ∧ pg < 0x22D then some { typ := 0x53, inst := pg - 0x229, rows := qdrChRows }
  else if 0x231 ≤ pg ∧ pg < 0x236 then
    some { typ := 0x61, inst := pg - 0x231, source := 98 + (pg - 0x231), evt := 0xFF, rows := fabPortRows }
  else
    match pg with
    | 0x200 => some { typ := 0x40, rows := coldescRows }
    | 0x201 => some { typ := 0x41, source := 90, evt := 0x3, rows := stitchRows }
    | 0x202 => some { typ := 0x42, source := 91, evt := 0xFF, err := true, rows := trkRows }
    | 0x203 => some { typ := 0x43, source := 92, evt := 0x3F, rows := borderRows }
    | 0x204 => some { typ := 0x44, source := 93, evt := 0xFF, rows := hifRows }
    | 0x205 => some { typ := 0x45, source := 94, evt := 0xF, err := true, rows := histRows }
    | 0x210 => some { typ := 0x50, source := 95, evt := 0xFF, err := true, rows := lpxRows }
    | 0x228 => some { typ := 0x52, source := 96, evt := 0x1F, err := true, rows := qdrRows }
    | 0x230 => some { typ := 0x60, source := 97, evt := 0x1FF, err := true, rows := fabRows }
    | 0x240 => some { typ := 0x70, source := 103, evt := 0x7F, rows := timeRows }
    | 0x241 => some { typ := 0x71, rows := ptpRows }
    | 0x242 => some { typ := 0x72, source := 104, evt := 0x3FF, err := true, rows := pairRows }
    | 0x250 => some { typ := 0x80, source := 105, evt := 0xF, rows := wkrRows }
    | 0x251 => some { typ := 0x81, source := 107, evt := 0x3, rows := intcRows }
    | 0x252 => some { typ := 0x82, rows := intcStRows }
    | 0x253 => some { typ := 0x83, source := 106, evt := 0xF, rows := pwrRows }
    | 0x260 => some { typ := 0x90, source := 108, evt := 0xFF, err := true, rows := thermRows }
    | 0x261 => some { typ := 0x91, source := 109, evt := 0x7F, err := true, rows := avsRows }
    | 0x262 => some { typ := 0x92, source := 110, evt := 0x3, rows := calRows }
    | 0x263 => some { typ := 0x93, source := 111, evt := 0xFFFF, rows := monRows }
    | 0x264 => some { typ := 0x94, source := 112, evt := 0x1F, err := true, rows := fltRows }
    | 0x265 => some { typ := 0x95, source := 113, evt := 0xF, rows := errcRows }
    | 0x266 => some { typ := 0x96, source := 114, evt := 0x3, rows := snapRows }
    | _ => none

/-- The page holds shadow registers committed through COMMIT_MODE (CAPS.SHADOW). -/
def PageInfo.shadow (p : PageInfo) : Bool := p.rows.any (fun r => decide (r.sh ≠ 0))

/-- A page whose CTRL.EN gates a rand (R658). -/
def isRandPage (pg : Nat) : Bool :=
  decide (0x100 ≤ pg) && decide (pg < 0x200) && decide (1 ≤ pg % 16) && decide (pg % 16 ≤ 4)

/-- The header every page starts with (R657). COMMIT registers exist where the page is shadowed (R663). -/
def headerRows (p : PageInfo) : List RegRow := [
  { off := 0x000, reset := wpack [(16, 16, p.typ), (8, 8, p.inst), (0, 8, 1)] },
  { off := 0x004, reset := wpack [(16, 8, p.source), (8, 8, 1), (3, 1, p.err.toNat),
      (2, 1, (decide (p.evt ≠ 0)).toNat), (1, 1, 1), (0, 1, p.shadow.toNat)] },
  { off := 0x008, reset := 1, rw := 0x80000000, w1c := 0xE0 },
  { off := 0x010, w1c := p.evt },
  { off := 0x014, rw := p.evt },
  { off := 0x018, clr := 0xFFFFFFFF },
  { off := 0x01C, clr := 0xFFFFFFFF },
  { off := 0x020, rw := 0x80000FFC, reset := 0x100 },
  { off := 0x024 }] ++
  (if p.shadow then [
    { off := 0x028, rw := 0x73 },
    { off := 0x02C, rw := 0xFFFFFFFF },
    { off := 0x030, rw := 0xFFFFFFFF },
    { off := 0x034, w1c := 0xF8000000 }] else [])

/-- The row of a list that holds page offset `o`, with the index in its array. -/
def findRow : List RegRow → Nat → Option (RegRow × Nat)
  | [], _ => none
  | r :: rs, o =>
    if r.off = o then some (r, 0)
    else if r.count > 1 ∧ r.off < o ∧ (o - r.off) % r.stride = 0 ∧ (o - r.off) / r.stride < r.count then
      some (r, (o - r.off) / r.stride)
    else findRow rs o

/-- The row of the register at BAR0 byte offset `a`, if one is there. -/
def regRow (a : Nat) : Option (RegRow × Nat) :=
  match pageInfo (a / 4096) with
  | none => none
  | some p => findRow (if a % 4096 < 0x100 then headerRows p else p.rows) (a % 4096)

/-- The reset value of the word at BAR0 byte offset `a`; 0 where no register stands (R12). -/
def regReset (a : Nat) : Word :=
  match regRow a with
  | none => 0
  | some (r, i) => r.reset + BitVec.ofNat 32 (r.step * i)

/-- The shadow bits of the word at `a` (R660). -/
def shadowMask (a : Nat) : Word :=
  match regRow a with
  | none => 0
  | some (r, _) => r.sh

/-- The byte offsets within its page of every register of a row list. -/
def rowOffsets (rs : List RegRow) : List Nat :=
  rs.flatMap (fun r => (List.range r.count).map (fun i => r.off + r.stride * i))

/-- Page number of a named page. -/
def pgDev : Nat := 0x0
def pgClk : Nat := 0x1
def pgPos : Nat := 0x2
def pgBoot : Nat := 0x3
def pgUpd : Nat := 0x4
def pgEnc (c : Nat) : Nat := 0x10 + c
def pgCmp : Nat := 0x18
def pgTrg : Nat := 0x19
def pgSkein (n : Nat) : Nat := 0x20 + n
def pgWale (w k : Nat) : Nat := 0x100 + 0x10 * w + k
def pgIn (w : Nat) : Nat := pgWale w 0
def pgFront (w : Nat) : Nat := pgWale w 1
def pgColor (w : Nat) : Nat := pgWale w 2
def pgGeom (w : Nat) : Nat := pgWale w 3
def pgSeg (w : Nat) : Nat := pgWale w 4
def pgColdesc : Nat := 0x200
def pgStitch : Nat := 0x201
def pgTrk : Nat := 0x202
def pgBorder : Nat := 0x203
def pgHif : Nat := 0x204
def pgHist : Nat := 0x205
def pgLpx : Nat := 0x210
def pgLpxCh (c : Nat) : Nat := 0x211 + c
def pgQdr : Nat := 0x228
def pgQdrCh (c : Nat) : Nat := 0x229 + c
def pgFab : Nat := 0x230
def pgFabPort (p : Nat) : Nat := 0x231 + p
def pgTime : Nat := 0x240
def pgPtp : Nat := 0x241
def pgPair : Nat := 0x242
def pgWkr : Nat := 0x250
def pgIntc : Nat := 0x251
def pgIntcSt : Nat := 0x252
def pgPwr : Nat := 0x253
def pgTherm : Nat := 0x260
def pgAvs : Nat := 0x261
def pgCal : Nat := 0x262
def pgMon : Nat := 0x263
def pgFlt : Nat := 0x264
def pgErrc : Nat := 0x265
def pgSnap : Nat := 0x266

/-- BAR0 byte offset of offset `o` of page `pg`. -/
def ra (pg o : Nat) : Nat := pg * 4096 + o

end Sys2Proof.Machine
end

