-- ==== Sys2Proof/Machine/State.lean ====
section
/-!
DEFINITION. The state of the block: every register, counter, store and mode the spec gives it, as plain
data, and the queue of waiting commands. The state is split by the part of the chip it belongs to:
`Dev` (the running part), `Mem` (byte memories) and `Boot` (what outlives a reset).
-/

namespace Sys2Proof.Machine

/-- The reasons a step can stop with a fault. No command of this block faults: the spec gives the part
no machine check that stops it, so the one reason stands for a state that no command reaches (safe). -/
inductive Fault where
  /-- Raised by nothing; kept so that the type is inhabited (safe). -/
  | none
  deriving DecidableEq, Repr

/-- The reasons a command is refused by the model. -/
inductive Refusal where
  /-- A row whose meaning is not written; raised only by `exec`'s arms (safe). -/
  | notModelled (mnemonic : String)
  deriving DecidableEq, Repr

/-- The stamp a line carries (R52). `time` counts 2^-16 ns (R43). `cycle` is the control-clock edge of
the trigger, `step` the number of position steps its encoder channel had taken and `tstep` that of steps of
time (R195), and `ver` numbers the values in force at the trigger (R27, R174); these four are the model's own. `epoch` counts recipe
epochs without wrapping; records carry its low 8 bits (R48). -/
structure Stamp where
  camLine : Nat := 0
  sysLine : Nat := 0
  encCh : Nat := 0
  tick : Int := 0
  frac : Nat := 0
  web : Int := 0
  time : Nat := 0
  epoch : Nat := 0
  short : Bool := false
  long : Bool := false
  gap : Bool := false
  late : Bool := false
  note : Bool := false
  cycle : Nat := 0
  step : Nat := 0
  tstep : Nat := 0
  ver : Nat := 0
  deriving DecidableEq, Repr, Inhabited

/-- A 64-byte record: eight words (R324). -/
structure Rec where
  w0 : Dword := 0
  w1 : Dword := 0
  w2 : Dword := 0
  w3 : Dword := 0
  w4 : Dword := 0
  w5 : Dword := 0
  w6 : Dword := 0
  w7 : Dword := 0xFFFF
  deriving DecidableEq, Repr, Inhabited

/-- An error on its way to the error controller, with its context (R609). -/
structure ErrEvent where
  code : Nat := 0
  sev : Nat := 0
  level : Nat := 0
  src : Nat := 0
  detail : Nat := 0
  sec : Nat := 0
  ns : Nat := 0
  sysLine : Nat := 0
  deriving DecidableEq, Repr, Inhabited

/-- What leaves the part, newest first in `Dev.out`: the model's own log, no register (DESIGN CHOICE, log 2). -/
inductive Out where
  /-- A Wicker producer's pulse, by event code (R545, R546). -/
  | pulse (code : Nat)
  /-- A pulse on TRIG_OUTnn: the edge it leaves on, its fine delay in 10 ps, its width (R124). -/
  | trigPin (nn edge fine width : Nat) (activeLow : Bool)
  /-- A pulse message on skein nn's transmit lane, with the low 16 bits of the trigger's camera line number where
  it carries one (R139, R142). -/
  | pulseMsg (nn : Nat) (line16 : Option Nat)
  /-- A resend request on skein n's transmit lane: camera line, sensor line, packet; none for a header (R151). -/
  | resend (n : Nat) (what : Option (Nat × Nat × Nat))
  /-- A GPIO message on skein n's transmit lane (R140). -/
  | gpioMsg (n levels : Nat)
  /-- What a read of the host returned, from BAR0 or BAR2; no bytes where it completed with UR (R14, R626, R667). -/
  | readAnswer (bar2 : Bool) (off : Nat) (data : List Byte)
  /-- A frame leaving Limileri port p (R451). -/
  | frame (p : Nat) (f : Frame)
  /-- Vector `v` is raised (R362, R569): its message leaves, or, where the host has masked the vector, its pending bit is set
  and the message leaves when it is unmasked (R363; the masks are no state of the model: DESIGN CHOICE, log 76). -/
  | msix (v : Nat)
  /-- The payload of a UDP datagram leaving Ethernet port p (R365). -/
  | datagram (p : Nat) (bytes : List Byte)
  /-- A PTP message of this part on Ethernet port p: its message type, sequence number, the time it carries in
  2^-16 ns where it carries one, its correctionField and the identity it answers or names (R503 to R506). -/
  | ptp (p kind seq : Nat) (time : Option Nat) (correction : Int) (ident : Dword)
  /-- A frame crossing the transparent clock to port p, with its correctionField (R509). -/
  | bridge (p : Nat) (correction : Int)
  /-- A core's entry at an interrupt: target, source, address (R567). -/
  | coreEntry (tt src addr : Nat)
  /-- An update message answered: source, its header words (R637). -/
  | updReply (source : Nat) (words : List Word)
  deriving DecidableEq, Repr

/-- How a page is armed: mode, channel, position, as taken at ARM (R661, R662). -/
structure Arming where
  armed : Bool := false
  mode : Nat := 0
  ch : Nat := 0
  pos : Nat := 0
  deriving DecidableEq, Repr, Inhabited

/-- The coordinates shared by all blocks (R34, R48, R56). -/
structure PosState where
  sysLine : Nat := 0
  refSeen : Bool := false
  epoch : Nat := 0
  /-- A change has taken effect whose line L is the next reference line (R697). -/
  epochPending : Bool := false
  /-- Stamp of the newest reference line. -/
  refStamp : Option Stamp := none
  /-- Newest stamp formed on each encoder channel, and on any (R332). -/
  lastStamp : Tbl (Option Stamp) := []
  lastAny : Option Stamp := none
  /-- Steps of time, and the line number before the newest (R195, R333). -/
  timeSteps : Nat := 0
  timeMark : Option Nat := none
  deriving DecidableEq, Repr, Inhabited

/-- Steps of position of a channel (R195, R333): how many, and the line number that the note of the newest
gives as the last stamped before it. -/
structure StepMark where
  before : Option Nat := none
  count : Nat := 0
  deriving DecidableEq, Repr, Inhabited

/-- One move of the count as the speed chain sees it (R112): its control-clock edge, the count after it, and
the interval since the edge before, when it is known. -/
structure SpeedEdge where
  at' : Nat := 0
  n : Int := 0
  delta : Option Nat := none
  deriving DecidableEq, Repr, Inhabited

/-- A reading's change still to be walked through by the count in steps of one tick (R103, R478):
`total` ticks over `period` cycles from `start`, `done` of them taken. -/
structure Spread where
  total : Int := 0
  start : Nat := 0
  period : Nat := 1
  done : Nat := 0
  deriving DecidableEq, Repr, Inhabited

/-- One encoder channel (R18, R93 to R115). -/
structure EncCh where
  count : Int := 0
  /-- High-water mark (R99). -/
  hwm : Int := 0
  /-- Filtered levels before SWAP_AB, and how long each raw input has differed from its level (R93). -/
  a : Bool := false
  b : Bool := false
  runA : Nat := 0
  runB : Nat := 0
  /-- One past the newest sampled control-clock edge. -/
  sampled : Nat := 0
  /-- Newest edge of the count and the interval before it (R112, R117). -/
  tEdge : Option Nat := none
  delta : Option Nat := none
  los : Bool := false
  /-- The last position steps taken, as (step number, web-position move); 16 are kept (R218). -/
  steps : List (Nat × Int) := []
  idxRef : Int := 0
  idxRefValid : Bool := false
  /-- Pending index correction −d (R107), and the edge of the trigger after which it applies (R109). -/
  corr : Option Int := none
  corrDue : Option Nat := none
  /-- Pitch before a committed change whose first line is still to come, and the stations whose offset the same
  commit wrote (R28, R29). -/
  pitchOld : Option Nat := none
  pitchKeep : List Nat := []
  mark : StepMark := {}
  /-- SSI: previous accepted reading and extended position (R102). -/
  rPrev : Option Nat := none
  pos : Int := 0
  failRun : Nat := 0
  stale : Bool := false
  spread : Spread := {}
  /-- Speed chain: alignment edge, history of edges since, outputs since (R112 to R114). -/
  tAlign : Nat := 0
  alignCount : Int := 0
  edges : List SpeedEdge := []
  outAt : Nat := 0
  speed : Int := 0
  deriving DecidableEq, Repr, Inhabited

/-- One compare unit (R117 to R122). NEXT counts 2^-32 ticks. -/
structure CmpUnit where
  next : Int := 0
  due : Option Nat := none
  last : Int := 0
  tFire : Option Nat := none
  /-- A late pulse waits for MIN_INTERVAL (R122). -/
  lateWait : Bool := false
  /-- Grid point last committed (R694). -/
  loaded : Int := 0
  deriving DecidableEq, Repr, Inhabited

/-- One trigger output (R123): the next instant of its timer. -/
structure TrgOut where
  timerAt : Nat := 0
  deriving DecidableEq, Repr, Inhabited

/-- One receive lane of a camera port (R132, R134). -/
structure LaneSt where
  locked : Bool := false
  skew : Nat := 0
  /-- Whether each equaliser loop of the lane is pinned (R81): CTLE low, high, DFE low, high. -/
  ctleLo : Bool := false
  ctleHi : Bool := false
  dfeLo : Bool := false
  dfeHi : Bool := false
  deriving DecidableEq, Repr, Inhabited

/-- One sample: its 16-bit working value, its mask bit and its SAT flag (R176 to R198). -/
structure Px where
  v : Nat := 0
  m : Bool := false
  s : Bool := false
  deriving DecidableEq, Repr, Inhabited

/-- A line slot of a camera port (R142). `parts` are the packets received, by sensor line and index;
`bad` those whose CRC failed and are not yet replaced (R152); `newer` counts the lines started since. -/
structure Slot where
  stamp : Stamp := {}
  winLo : Nat := 0
  winHi : Nat := 0
  deadline : Nat := 0
  trigAt : Nat := 0
  started : Bool := false
  startAt : Nat := 0
  ended : Bool := false
  timedOut : Bool := false
  reverse : Bool := false
  resent : Bool := false
  /-- The line is complete and waits for its turn in line order (R150). -/
  fin : Bool := false
  /-- The complete line was held in the resend store, behind an older one (R152). -/
  kept : Bool := false
  parts : List (Nat × Nat × List Byte) := []
  bad : List (Nat × Nat) := []
  reqs : Nat := 0
  newer : Nat := 0
  cause : Option Nat := none
  deriving DecidableEq, Repr, Inhabited

/-- A line on its way from a port to its wale (R150): for each sensor line its bytes and how many pixels
of them count; `gap` lines are not processed. `readyAt` is the control-clock edge it was offered on. -/
structure CamLine where
  stamp : Stamp := {}
  gap : Bool := false
  lines : List (Nat × List Byte) := []
  readyAt : Nat := 0
  deriving DecidableEq, Repr, Inhabited

/-- Gap lines of one producer merged so far (R158, R232, R269). -/
structure GapRun where
  cause : Nat := 0
  left : Nat := 0
  width : Nat := 0
  cls : Nat := 0xFF
  station : Nat := 0
  firstNo : Nat := 0
  lastNo : Nat := 0
  first : Stamp := {}
  last : Stamp := {}
  deriving DecidableEq, Repr, Inhabited

/-- A bad packet taken as a possible image header, pending its good copy (R152). -/
structure PendHdr where
  at' : Nat := 0
  reqs : Nat := 0
  newer : Nat := 0
  deriving DecidableEq, Repr, Inhabited

/-- What reached a port while a possible image header was pending, with its arrival edge; it is handled
once the header is resolved (R152). -/
inductive HeldEv where
  | start (at' : Nat) (h : Header)
  | packet (at' : Nat) (p : Packet)
  | fin (at' : Nat)
  deriving DecidableEq, Repr

/-- Block health of one block (R159): short, long, missing or timed out, other gap lines. -/
structure BlkHealth where
  block : Nat := 0
  short : Nat := 0
  long : Nat := 0
  missing : Nat := 0
  other : Nat := 0
  deriving DecidableEq, Repr, Inhabited

/-- A camera port (R131 to R163). -/
structure SkeinPort where
  lanes : Tbl LaneSt := []
  linkUp : Bool := false
  nextLine : Nat := 0
  slots : List Slot := []
  /-- Camera line number of the line in progress. -/
  cur : Option Nat := none
  /-- Packets arriving are those of an unsolicited or closed line (R143, R145). -/
  discard : Bool := false
  hdr : Option PendHdr := none
  held : List HeldEv := []
  ready : List CamLine := []
  gaps : List GapRun := []
  health : BlkHealth := {}
  latched : BlkHealth := {}
  /-- Levels of the GPIO consumers (R140). -/
  gpOut : Nat := 0
  /-- Lanes waiting for an eye scan, the one in progress first (R165). -/
  scans : List Nat := []
  stalled : Bool := false
  lastStart : Option Nat := none
  lastLine : Option Stamp := none
  deriving DecidableEq, Repr, Inhabited

/-- A camera line in the front and colour rands (R190 to R195): its samples by sensor line, raw and
linearised; `fault` replaces it by a gap of that cause (R72, R73); `out` once its output line is emitted. -/
structure ALine where
  stamp : Stamp := {}
  gap : Bool := false
  raw : List (List Px) := []
  z : List (List Px) := []
  out : Bool := false
  deriving DecidableEq, Repr, Inhabited

/-- Block statistics as gathered so far (R199 to R203), under the setting `cfg` of the block's first line. -/
structure StatAcc where
  block : Nat := 0
  cfg : Nat := 0
  len : Nat := 0
  epoch : Nat := 0
  span : Bool := false
  partly : Bool := false
  lines : Nat := 0
  gaps : Nat := 0
  cols : List (Nat × Nat) := []
  hist : Tbl Nat := []
  lo : Nat := 0xFFFF
  hi : Nat := 0
  sat : Nat := 0
  pix : Nat := 0
  deriving DecidableEq, Repr, Inhabited

/-- A line in the stagger store or in history (R220, R371): codes at `bits` bits, plane by plane, and the mask
and SAT flags of its columns. `feats` numbers the feature planes after Y. -/
structure SLine where
  stamp : Stamp := {}
  gap : Bool := false
  base : Nat := 0
  bits : Nat := 12
  feats : List Nat := []
  mask : List Bool := []
  sat : List Bool := []
  planes : List (List Nat) := []
  deriving DecidableEq, Repr, Inhabited

/-- A camera's contribution to one system line (R217): output columns from `base`, plane by plane; `stag`
flags the columns that are STAGGER gaps (R232); `cause` replaces it by a gap over the owned columns. -/
structure Contrib where
  line : Nat := 0
  base : Nat := 0
  feats : List Nat := []
  planes : List (List Px) := []
  stag : List Bool := []
  cause : Option Nat := none
  deriving DecidableEq, Repr, Inhabited

/-- A chunk of history complete and waiting for its compressor (R372, R382, R383). -/
structure HChunk where
  no : Nat := 0
  rows : List SLine := []
  bypass : Bool := false
  ver : Nat := 0
  deriving DecidableEq, Repr, Inhabited

/-- A chunk of history in its ring (R376 to R379): its place and length in bytes, the feature planes held, and
for each row its stamp and whether it is a gap. -/
structure HeldChunk where
  no : Nat := 0
  place : Nat := 0
  len : Nat := 0
  feats : List Nat := []
  rows : List (Stamp × Bool) := []
  deriving DecidableEq, Repr, Inhabited

/-- The front, colour and geometry rands of one recipe context, and its history (R172, R189 to R224, R371). -/
structure WaleSt where
  lines : List ALine := []
  /-- Lines have left the alignment store (R194), and the stagger store (R224), since they were last empty. -/
  dropped : Bool := false
  camGaps : List GapRun := []
  alignGaps : List GapRun := []
  /-- The next line a rand takes is replaced as a parity gap (R72): front, geometry, segmentation, run. -/
  faults : List Nat := []
  statOn : Bool := false
  stat : StatAcc := {}
  statDone : List StatAcc := []
  seq : Nat := 0
  stag : List SLine := []
  stagDropped : Nat := 0
  winDropped : Nat := 0
  /-- Versions of the values in force whose first line flushes the store (R233), and history (R374). -/
  flushAt : List Nat := []
  histAt : List Nat := []
  window : List SLine := []
  nextLine : Nat := 0
  contribs : List Contrib := []
  sysGaps : List GapRun := []
  rows : List SLine := []
  chunks : List HChunk := []
  /-- History: next chunk, oldest held chunk, write pointer in 64-byte units (R376, R379). -/
  hNext : Nat := 0
  hHeld : Nat := 0
  hPtr : Nat := 0
  hBusy : List HeldChunk := []
  ratio : List (Nat × Nat) := []
  deriving DecidableEq, Repr, Inhabited

/-- The background of one output column (R243 to R250): 16.8 level, whether seeded, its freeze run, the count of
non-void lines at its newest raw flag, which bound it is held at (1 low, 2 high), and whether it is frozen. -/
structure BgCol where
  bg : Nat := 0
  seeded : Bool := false
  run : Nat := 0
  flagAt : Option Nat := none
  pin : Nat := 0
  frozen : Bool := false
  deriving DecidableEq, Repr, Inhabited

/-- A line thresholded and waiting for its morphology delay (R263): kind 0 inspected, 1 void, 2 learning; its
working span starts at column `lo`; `flags` are raw class flags, `pieces` gaps already found on it. -/
structure FLine where
  n : Nat := 0
  stamp : Stamp := {}
  kind : Nat := 0
  fresh : Bool := false
  lo : Nat := 0
  ownLo : Nat := 0
  ownHi : Nat := 0
  station : Nat := 0
  y : List Px := []
  dev : List Int := []
  flags : List Nat := []
  pieces : List (Nat × Nat × Nat) := []
  deriving DecidableEq, Repr, Inhabited

/-- A line of a camera's working span as segmentation takes it (R227, R240): luminance and texture plane. -/
structure SpanLine where
  n : Nat := 0
  stamp : Stamp := {}
  station : Nat := 0
  lo : Nat := 0
  ownLo : Nat := 0
  ownHi : Nat := 0
  y : List Px := []
  t : List Px := []
  deriving DecidableEq, Repr, Inhabited

/-- A run of flagged columns (R264, R265). -/
structure Run where
  start : Nat := 0
  fin : Nat := 0
  cls : Nat := 0
  station : Nat := 0
  sum : Nat := 0
  peak : Int := 0
  max : Nat := 0
  min : Nat := 0
  deriving DecidableEq, Repr, Inhabited

/-- A line marker with the runs queued before it (R266); `count` is its RUNS field. -/
structure Marker where
  wale : Nat := 0
  ctx : Nat := 0
  station : Nat := 0
  n : Nat := 0
  stamp : Stamp := {}
  void : Bool := false
  learn : Bool := false
  satd : Bool := false
  count : Nat := 0
  ownLo : Nat := 0
  ownHi : Nat := 0
  runs : List Run := []
  deriving DecidableEq, Repr, Inhabited

/-- The segmentation and run rands of one recipe context (R240 to R270). `learnAt` numbers the values in force
whose first line starts learning (R249); `lastVer` is that of the block's newest line (R259). -/
structure SegSt where
  learnAt : List Nat := []
  en : Bool := false
  ob : Nat := 0
  cols : List BgCol := []
  learn : Nat := 0
  learnDone : Bool := false
  nv : Nat := 0
  sdev : Nat := 0
  stex : Nat := 0
  cnt : Nat := 0
  owned : Nat := 1
  block : Option Nat := none
  post : Bool := false
  lastVer : Nat := 0
  pend : List FLine := []
  hist : List FLine := []
  credBlock : Option Nat := none
  gaps : List GapRun := []
  deriving DecidableEq, Repr, Inhabited

/-- A coil: the context of R298 with its full FIRST, and what the tracker knows beside it: the station, and
the line it was opened on. An empty set of features has area 0 (R316). -/
structure Coil where
  id : Nat := 0
  first : Nat := 0
  span : Nat := 0
  left : Nat := 0
  right : Nat := 0
  area : Nat := 0
  origin : Nat := 0
  cls : Nat := 0
  named : Bool := false
  gapAdj : Bool := false
  momOvf : Bool := false
  seam : Bool := false
  trib : Bool := false
  split : Bool := false
  cut : Bool := false
  sum : Nat := 0
  peak : Int := 0
  min : Nat := 0xFFFF
  max : Nat := 0
  runs : Nat := 0
  perim : Nat := 0
  sx : Int := 0
  sy : Int := 0
  sxx : Int := 0
  mscale : Nat := 0
  syy : Int := 0
  sxy : Int := 0
  station : Nat := 0
  born : Nat := 0
  deriving DecidableEq, Repr, Inhabited

/-- What a coil handle maps to (R295): `parked` with its QDR-IV slot, `forward` with the line after which it
is released (R286), `closed` a tributary share whose summary of that number awaits acknowledgement (R313). -/
inductive HandleEnt where
  | free
  | resident (c : Coil)
  | parked (slot : Nat) (c : Coil)
  | forward (dest station release : Nat)
  | closed (seq : Nat) (c : Coil)
  deriving DecidableEq, Repr, Inhabited

/-- A frontier entry (R279). -/
structure FrontEnt where
  line : Nat := 0
  refused : Bool := false
  handle : Nat := 0x1FFFFF
  deriving DecidableEq, Repr, Inhabited

/-- Lines on which a span of columns was unseen (R277, R291); `nb` for a neighbour's boundary column. -/
structure Unseen where
  lo : Nat := 0
  hi : Nat := 0
  firstNo : Nat := 0
  lastNo : Nat := 0
  nb : Bool := false
  deriving DecidableEq, Repr, Inhabited

/-- A station's place in the tracker: the last line committed and the values in force for it, the stale floor
(R282) and the unseen spans. -/
structure TrkStn where
  last : Option Nat := none
  on : Bool := false
  conn8 : Bool := true
  close : Nat := 2
  col : Nat := 0
  len : Nat := 0x4000
  base : Nat := 0
  lastVer : Nat := 0
  floor : Nat := 0
  unseen : List Unseen := []
  deriving DecidableEq, Repr, Inhabited

/-- A station's boundary column after a line, as a LINE fragment carries it (R310, R320). -/
structure SeamFrag where
  station : Nat := 0
  line : Nat := 0
  covered : Bool := false
  unseen : Bool := false
  conn8 : Bool := false
  close : Nat := 0
  col : Nat := 0
  handle : Nat := 0x1FFFFF
  entLine : Nat := 0
  coil : Nat := 0
  node : Nat := 0
  deriving DecidableEq, Repr, Inhabited

/-- Two shares joined across a side (R312): this part's handle, the neighbour's, and who reports the shape. On
the right side the neighbour's share is the tributary; on the left side it is the owner. -/
structure SeamLink where
  right : Bool := false
  mine : Nat := 0
  theirs : Nat := 0
  coil : Nat := 0
  node : Nat := 0
  deriving DecidableEq, Repr, Inhabited

/-- A summary in the seam journal (R313): its sequence number, close or cut, the owner as last named, and the
share's context. -/
structure SeamSum where
  seq : Nat := 0
  cutS : Bool := false
  line : Nat := 0
  coil : Nat := 0
  node : Nat := 0
  ver : Nat := 0
  c : Coil := {}
  deriving DecidableEq, Repr, Inhabited

/-- One side of the part's windows (R309 to R319): `own` fragments sent and not yet met, `nb` received ahead
of the part's own line, and the summaries on their way. -/
structure SeamSide where
  txSeq : Nat := 0
  rxHigh : Nat := 0
  own : List SeamFrag := []
  nb : List SeamFrag := []
  journal : List SeamSum := []
  deriving DecidableEq, Repr, Inhabited

/-- The coil tracker (R274 to R320). `ring` is the stamp ring by line modulo 262,144; `slots` what each
QDR-IV slot of the parked-coil area holds; `opens` counts coils opened and parked (the model's own). -/
structure Tracker where
  ring : Tbl Stamp := []
  front : Tbl FrontEnt := []
  handles : Tbl HandleEnt := []
  slots : Tbl (List Dword) := []
  retired : List Nat := []
  stns : Tbl TrkStn := []
  left : SeamSide := {}
  right : SeamSide := {}
  links : List SeamLink := []
  joins : List (Nat × Nat) := []
  gaps : Tbl (List GapRun) := []
  opens : Nat := 0
  deriving DecidableEq, Repr, Inhabited

/-- A released line in patch staging (R349): for each camera its owned columns from `lo`, plane by plane. -/
structure StagedLine where
  n : Nat := 0
  parts : List (Nat × List (Nat × List Nat)) := []
  deriving DecidableEq, Repr, Inhabited

/-- A station's release of system lines (R229, R230): the next line, the edge on which the first contribution
to each line still unreleased was formed, and the lines in patch staging. -/
structure StnSt where
  next : Nat := 0
  first : List (Nat × Nat) := []
  staged : List StagedLine := []
  deriving DecidableEq, Repr, Inhabited

/-- The time counter in units of 2^-32 ns and the adjustment left (R493, R495); `before` is the counter as it was
before a step on the edge given (R500). -/
structure TimeState where
  now : Nat := 0
  before : Option (Nat × Nat) := none
  adj : Int := 0
  adjLo : Nat := 0
  valid : Bool := false
  atLimit : Bool := false
  deriving DecidableEq, Repr, Inhabited

/-- A frame waiting at a port: the port it arrived on, none for one of this part's own, and the number
that its copies share, by which its buffer is known to be free (R454); `freed` once that is done. -/
structure QFrame where
  f : Frame
  arr : Option Nat
  uid : Nat
  freed : Bool := false
  deriving DecidableEq, Repr

/-- One Limileri port (R442 to R462). What its registers hold is not repeated here. `txSeq` is the next
LSEQ to send and `rxSeq` the next expected; `rxAny` tells that a frame was accepted since the link came
up, so that ACK means something; `stuck` counts replays without progress (R459); `cred` are the credits
held and `back` those to return, by pool; `turn` tells that the last frame of priority 6 was a record. -/
structure FabPort where
  lanes : Tbl LaneSt := []
  scans : List Nat := []
  trainAt : Nat := 0
  txSeq : Nat := 0
  rxSeq : Nat := 0
  rxAny : Bool := false
  replay : List QFrame := []
  oldestAt : Nat := 0
  stuck : Nat := 0
  cred : Tbl Nat := []
  back : Tbl Nat := []
  outq : List QFrame := []
  held : List QFrame := []
  heldAt : Nat := 0
  nakFor : Option Nat := none
  nakAt : Nat := 0
  ackAt : Option Nat := none
  turn : Bool := false
  /-- Link delay in 2^-16 ns, and the egress time of the request outstanding (R479). -/
  delay : Int := 0
  pdAt : Option Nat := none
  deriving DecidableEq, Repr, Inhabited

/-- What this node knows of another from its HELLO frames (R463, R464). `w3` is the partner word. -/
structure SeenNode where
  serial : Nat := 0
  id : Nat := 0
  idValid : Bool := false
  master : Bool := false
  timeSrc : Bool := false
  head : Nat := 0
  meshX : Nat := 0
  meshY : Nat := 0
  major : Nat := 0
  stnEn : Nat := 0
  w3 : Nat := 0
  spans : List (Nat × Nat) := []
  lastAt : Nat := 0
  deriving DecidableEq, Repr, Inhabited

/-- A reference line or relay sample on its way to taking effect (R473, R478). -/
structure RefWait where
  words : List Dword := []
  at' : Nat := 0
  late : Bool := false
  deriving DecidableEq, Repr, Inhabited

/-- An epoch commit as a node knows it from its PREPARE (R484 to R487). -/
structure EpochPrep where
  id : Nat := 0
  line : Nat := 0
  flags : Nat := 0
  deriving DecidableEq, Repr, Inhabited

/-- A relay of an encoder count (R477, R478): the next publication, the last sample taken, when it came,
and the samples waiting. -/
structure RelaySt where
  nextPub : Nat := 0
  last : Option Int := none
  lastAt : Nat := 0
  waits : List RefWait := []
  deriving DecidableEq, Repr, Inhabited

/-- The collector's side of one origin node (R461). -/
structure CollectSt where
  last : Option Nat := none
  unacked : Nat := 0
  firstAt : Nat := 0
  ackedAt : Option Nat := none
  deriving DecidableEq, Repr, Inhabited

/-- The part's own place on the fabric (R463 to R488). -/
structure FabNode where
  seen : List SeenNode := []
  /-- HELLO and ASSIGN frames seen: a key of source and sequence, and when (R464). -/
  flooded : List (Nat × Nat) := []
  helloSeq : Nat := 0
  newAt : Nat := 0
  leader : Bool := false
  assignAt : Nat := 0
  uid : Nat := 0
  /-- Newest reference trigger or REF_IDLE sent, and newest received (R472, R475). -/
  refSent : Nat := 0
  refHeard : Nat := 0
  waits : List RefWait := []
  /-- Steps of the reference encoder as counted through STEP_SEQ, and the moves known (R476). -/
  stepSeq : Option Nat := none
  refCount : Nat := 0
  refSteps : List (Nat × Int) := []
  /-- This part's own pending commit as master, its votes, and the decision carried (R484 to R486). -/
  own : Option EpochPrep := none
  votes : List (Nat × Bool) := []
  prep : Option EpochPrep := none
  lastCommitted : Bool := false
  lastFlags : Nat := 0
  relays : Tbl RelaySt := []
  syncSeq : Nat := 0
  /-- Last offset from the time source in 2^-16 ns (R507). -/
  syncOff : Option Int := none
  collect : Tbl CollectSt := []
  deriving DecidableEq, Repr, Inhabited

/-- The interface versions of the running image (R630, R467): fabric, Pairing, oldest Pairing, settings. -/
structure ImgVer where
  fab : Nat := 0
  pair : Nat := 0
  pairMin : Nat := 0
  schema : Nat := 0
  schemaMin : Nat := 0
  deriving DecidableEq, Repr, Inhabited

/-- An LPDDR5X channel (R420 to R431): for each rank the refreshes owed, whether it refuses postponement and
the PAYBACK windows it has taken; failed readouts in a row, the fall-back band, the open rows by rank and bank,
and the write delays that the oscillator has tracked. -/
structure LpxCh where
  owed : Tbl Nat := []
  refusing : List Nat := []
  windows : Tbl (Option Nat) := []
  fails : Nat := 0
  band : Nat := 0
  rows : Tbl (Option Nat) := []
  delay : Tbl Int := []
  deriving DecidableEq, Repr, Inhabited

/-- A coil record on its way to Border, with the first and last lines its patch needs (R349). -/
structure CoilOut where
  body : Rec := {}
  first : Nat := 0
  last : Nat := 0
  deriving DecidableEq, Repr, Inhabited

/-- Border's inputs, in the priority order of R338, oldest first; a gap comes with its last system line. -/
structure BorderIn where
  notes : List Rec := []
  markers : List Rec := []
  gaps : List (Rec × Nat) := []
  coils : List CoilOut := []
  /-- The STOP record, which comes after everything else (R331). -/
  stop : Option Rec := none
  deriving DecidableEq, Repr, Inhabited

/-- A record in the store (R340, R341): its origin node and sequence number; `due` is the edge on which a
refinement still awaited ends (R347). -/
structure StoreRec where
  body : Rec := {}
  origin : Nat := 0
  seq : Nat := 0
  relayed : Bool := false
  due : Option Nat := none
  deriving DecidableEq, Repr, Inhabited

/-- Records a destination missed, of one origin node (R342, R334). -/
structure LossRun where
  origin : Nat := 0
  firstSeq : Nat := 0
  lastSeq : Nat := 0
  count : Nat := 0
  deriving DecidableEq, Repr, Inhabited

/-- A destination (R340 to R343, R365 to R367): its place in the store, the records missed and not yet told,
on the fabric how far it has sent beyond what is acknowledged (R461), and, on Ethernet, the records queued with
the edge of the first, the last datagram's edge, the datagrams sent, and the request being served. -/
structure Dest where
  pos : Nat := 0
  sent : Nat := 0
  miss : List LossRun := []
  queue : List Rec := []
  firstAt : Nat := 0
  sentAt : Nat := 0
  dgSeq : Nat := 0
  resend : Option (Nat × Nat) := none
  deriving DecidableEq, Repr, Inhabited

/-- A patch with its slot assigned and not yet written (R348, R349). -/
structure PatchJob where
  slot : Nat := 0
  seq : Nat := 0
  station : Nat := 0
  left : Nat := 0
  right : Nat := 0
  first : Nat := 0
  last : Nat := 0
  deriving DecidableEq, Repr, Inhabited

/-- Border (R337 to R351). `base` is the number of the oldest record held, counted as they entered; `slots`
counts patch slots handed out. -/
structure Border where
  began : Bool := false
  stopped : Bool := false
  seq : Nat := 0
  base : Nat := 0
  store : List StoreRec := []
  dests : Tbl Dest := []
  slots : Nat := 0
  patches : List PatchJob := []
  deriving DecidableEq, Repr, Inhabited

/-- How a host command ended: status, bytes written, VALUE (R359). -/
structure CmdEnd where
  status : Nat := 0
  len : Nat := 0
  value : Nat := 0
  deriving DecidableEq, Repr, Inhabited

/-- An outstanding host command (R88, R357). `go` tells that it may start (R90), `fetched` the edge it was fetched
on. -/
structure HostCmd where
  tag : Nat := 0
  words : List Dword := []
  go : Bool := false
  fetched : Nat := 0
  fin : Option CmdEnd := none
  deriving DecidableEq, Repr, Inhabited

/-- The host interface (R352 to R363): outstanding commands in submission order, the tags of those finished in
the order they finished, and for each of vectors 0 to 3 the entries since its last message with the edge of the
first. -/
structure HostIf where
  cmds : List HostCmd := []
  finished : List Nat := []
  coal : Tbl (Nat × Nat) := []
  deriving DecidableEq, Repr, Inhabited

/-- A reprocess job (R394 to R405): its operands, the version of the values in force it runs under, the next
line, how many lines of lead-in it learns from, and what it has found so far. -/
structure Job where
  tag : Nat := 0
  buf : Nat := 0
  room : Nat := 0
  firstLine : Nat := 0
  lines : Nat := 0
  src : Nat := 0
  tgt : Nat := 0
  stn : Nat := 0
  leadIn : Bool := false
  ownLo : Nat := 0
  ownHi : Nat := 0
  ver : Nat := 0
  next : Nat := 0
  ovr : Bool := false
  coilNext : Nat := 0
  ring : Tbl Stamp := []
  recs : Nat := 0
  lost : Nat := 0
  missing : Nat := 0
  undecoded : Nat := 0
  done : Nat := 0
  firstDone : Nat := 0
  lastDone : Nat := 0
  deriving DecidableEq, Repr, Inhabited

/-- The best master's dataset as the last Announce of it gave it (R504), and the port it was heard on. -/
structure PtpMaster where
  p1 : Nat := 0
  cls : Nat := 0
  acc : Nat := 0
  var : Nat := 0
  p2 : Nat := 0
  ident : Dword := 0
  steps : Nat := 0
  heardAt : Nat := 0
  deriving DecidableEq, Repr, Inhabited

/-- PTP (R503 to R506): the best master, its last Sync as (origin time plus correction, ingress), the request
outstanding with its egress time, the path delay in 2^-16 ns, the last offsets, the edge on which a Sync was
last used, and the sequence numbers of messages sent by kind. -/
structure PtpSt where
  best : Option PtpMaster := none
  sync : Option (Int × Int) := none
  reqAt : Option Int := none
  delay : Int := 0
  offsets : List Int := []
  usedAt : Nat := 0
  seqs : Tbl Nat := []
  deriving DecidableEq, Repr, Inhabited

/-- A mirrored write (R520, R521): its sequence number, place and values, and the line it applies at. -/
structure MirWrite where
  seq : Nat := 0
  bar2 : Bool := false
  off : Nat := 0
  vals : List Word := []
  line : Option Nat := none
  deriving DecidableEq, Repr, Inhabited

/-- A trigger this part issued as standby (R523, R533), or, with `seen`, a pulse of the trigger bus that waits for
its trigger; `told` once it has been reported missing. -/
structure TrigMark where
  nn : Nat := 0
  edge : Nat := 0
  camLine : Nat := 0
  seen : Bool := false
  told : Bool := false
  deriving DecidableEq, Repr, Inhabited

/-- A digest of a system block (R526): epoch, next sequence number, records, their CRC, next coil ID, the XOR of
coil contexts, open coils, and the segmentation CRC. -/
structure Digest where
  block : Nat := 0
  epoch : Nat := 0
  nextSeq : Nat := 0
  recs : Nat := 0
  crc : Nat := 0
  coilNext : Nat := 0
  xorC : Nat := 0
  open' : Nat := 0
  segCrc : Nat := 0
  deriving DecidableEq, Repr, Inhabited

/-- A part's place in a Pairing (R514 to R541). The state itself is PAIR_STAT.STATE. `protect` repeats that it
is PROTECTED; `claimAt` ends a claim delay and `claimed` began a claim; `armSent` and `armAcked` follow the armings
mirrored (R520); `held` are mirrored writes waiting for their line; `recs` and `xorC` gather a digest's records and
coil contexts since the last one; `swap` is the line, cause and ID of a swap to come; `joinFrom` is the block b_c of a
join and `buf` the stitched lines in the catch-up region (R539), with their wale and context,
and `posn` position state not yet in effect; the last three
assemble an UPDATE message. -/
structure PairSt where
  okIn : Bool := false
  actIn : Bool := false
  okOut : Bool := false
  actOut : Bool := false
  claimAt : Option Nat := none
  claimed : Option Nat := none
  protect : Bool := false
  mirTx : Nat := 0
  mirAck : Nat := 0
  mirRx : Nat := 0
  armSent : List (Nat × Nat) := []
  armAcked : List Nat := []
  held : List MirWrite := []
  twinFormed : Nat := 0
  formedAt : Nat := 0
  heardAt : Nat := 0
  trigs : List TrigMark := []
  recs : List Rec := []
  xorC : Nat := 0
  digests : List Digest := []
  twinDigests : List Digest := []
  matched : Nat := 0
  encDiff : Int := 0
  swap : Option (Nat × Nat × Nat) := none
  swapId : Nat := 0
  joinAt : Nat := 0
  joinFrom : Option Nat := none
  buf : List (Nat × Nat × SpanLine) := []
  posn : List (List Dword) := []
  msgTx : Nat := 0
  msgNo : Nat := 0
  msgLen : Nat := 0
  msg : List Byte := []
  deriving DecidableEq, Repr, Inhabited

/-- Wicker (R544 to R560): ball levels, cell states, edges on which cells last took an edge, groups last changed,
slots last rose and targets stay busy, the latches of IRQ_W slots in deep sleep, and the edge on which each
pulse producer last fired (R545). -/
structure WkrSt where
  balls : Nat := 0
  q : Tbl Bool := []
  cellAt : Tbl (Option Nat) := []
  groupAt : Tbl (Option Nat) := []
  rose : Tbl (Option Nat) := []
  busy : Tbl Nat := []
  latched : List Nat := []
  fired : Tbl (Option Nat) := []
  deriving DecidableEq, Repr, Inhabited

/-- The interrupt controller (R561 to R571): the configuration a claim completes under where it has changed
since, and each core's stack of (source, priority), innermost first. -/
structure IntcSt where
  under : Tbl (Option Word) := []
  stack : Tbl (List (Nat × Nat)) := []
  deriving DecidableEq, Repr, Inhabited

/-- Whether the part runs (R65, R66, R574, R595, R624, R628). -/
inductive Life where
  /-- Run or Idle, by PWR_STAT. -/
  | up
  /-- Held in reset: 1 since the root lock was lost (R65), 2 by the thermal trip (R596), 3 by a rail, 4 for want of
  REFCLK_ROOT at the release of PORESET_N (R677), 5 by TEST_EN (R683). -/
  | held (cause : Nat)
  /-- Deep sleep. -/
  | asleep
  /-- Recovery: only the boot ROM runs. -/
  | recovery
  deriving DecidableEq, Repr, Inhabited

/-- The power states (R572 to R576): the edge deep sleep was entered on, and the host's accesses held until the
part wakes. -/
structure PwrSt where
  sleptAt : Nat := 0
  held : List HostAccess := []
  deriving DecidableEq, Repr, Inhabited

/-- Thermal control (R582 to R596): sensors read since Upsett, edges of suspect readings by sensor, models
started, the base held by unit, the edge of the last throttle evaluation, whether need held then with the step
at its ceiling, the sensor of HOLD_FAILED, and averages of power by unit. -/
structure ThermSt where
  seen : List Nat := []
  suspects : Tbl (List Nat) := []
  started : List Nat := []
  base : Tbl Int := []
  evalAt : Option Nat := none
  pressed : Bool := false
  held : Option Nat := none
  power : Tbl Nat := []
  deriving DecidableEq, Repr, Inhabited

/-- A location watched for lasting faults (R607): the edges of its events, newest first. -/
structure FaultLoc where
  loc : Nat := 0
  at' : List Nat := []
  lasting : Bool := false
  deriving DecidableEq, Repr, Inhabited

/-- Health (R598 to R616): ageing floors as they were at the baseline, calibration runs waiting and running by class, the
temperature at each target's last run, bins of monitors, tracked locations by class, whether a snapshot by an epoch
commit waits, and the SEQ of the next error presented. -/
structure HealthSt where
  floor0 : Tbl (Option Nat) := []
  calQueue : List (Nat × Nat) := []
  calRun : Tbl (Option Nat) := []
  calTemp : Tbl Int := []
  bins : Tbl Nat := []
  faults : Tbl (List FaultLoc) := []
  snapWaits : Bool := false
  errSeq : Nat := 0
  deriving DecidableEq, Repr, Inhabited

/-- A staging session (R636): its owner, token and the edge of its last operation. -/
structure Session where
  owner : Nat := 0
  token : Nat := 0
  lastAt : Nat := 0
  deriving DecidableEq, Repr, Inhabited

/-- Field update (R636 to R649): the session, the running image's least microcode major, the microcode waiting
and how it is started (1 by MC_GO, 2 compulsory, 3 after a swap), the system block from which it may start, the edge on
which settings were applied, or else the system line at which they are, the edge of activation's end, and sessions
opened. -/
structure UpdSt where
  sess : Option Session := none
  mcMin : Nat := 0
  mcNew : Nat := 0
  mcGo : Nat := 0
  mcBlock : Nat := 0
  settledAt : Option Nat := none
  settleLine : Option Nat := none
  doneAt : Nat := 0
  opened : Nat := 0
  deriving DecidableEq, Repr, Inhabited

/-- The byte memories: host memory, the LPDDR5X with the address ranges whose contents self-refresh has lost
(R429, newest first), the wale table windows of BAR2 by window offset, the
classification area of the QDR-IV, Handle-core memory, the update window, and the boot flash. -/
structure Mem where
  host : List Host.Cell := []
  lpx : List Host.Cell := []
  lpxLost : List (Nat × Nat) := []
  tbl : List Host.Cell := []
  qdr : List Host.Cell := []
  handle : List Host.Cell := []
  win : List Host.Cell := []
  flash : List Host.Cell := []
  deriving DecidableEq, Repr, Inhabited

/-- The running part. `cycle` is the present control-clock edge; `regs` holds what the host reads of
each register, `force` the values in force of shadow registers (R660), both by BAR0 byte offset; `latch`
holds the words latched by reads of LO registers. -/
structure Dev where
  cycle : Nat := 0
  regs : Tbl Word := []
  force : Tbl Word := []
  latch : Tbl Word := []
  /-- Number of the values in force, and the superseded ones (R27, R174); the model's own. -/
  ver : Nat := 0
  past : Tbl (Tbl Word) := []
  arming : Tbl Arming := []
  out : List Out := []
  errIn : List ErrEvent := []
  pos : PosState := {}
  enc : Tbl EncCh := []
  cmp : Tbl CmpUnit := []
  trg : Tbl TrgOut := []
  skein : Tbl SkeinPort := []
  wale : Tbl WaleSt := []
  stn : Tbl StnSt := []
  seg : Tbl SegSt := []
  /-- Line markers and runs on their way to the coil tracker, oldest first (R87, R266, R274). -/
  rods : List Marker := []
  trk : Tracker := {}
  /-- QDR-IV granules, by number, found uncorrectable and not written since (R434, R436). -/
  qdrBad : List Nat := []
  /-- Isolated Stake dies (R75), and the system blocks of a microcode change, whose camera lines are taken in as gap
  lines (R643). -/
  iso : List Nat := []
  paused : List Nat := []
  /-- The part accepts no more lines (R65, R595). -/
  stopped : Bool := false
  /-- Stamps of the reference lines by system line number; none for a line without a stamp (R216, R474). -/
  refLines : Tbl (Option Stamp) := []
  time : TimeState := {}
  bin : BorderIn := {}
  border : Border := {}
  hif : HostIf := {}
  /-- Reprocess jobs running, by slot, and waiting (R396). -/
  jobs : Tbl (Option Job) := []
  jobq : List Job := []
  lpxch : Tbl LpxCh := []
  /-- Ethernet ports whose link is up (R343). -/
  ethUp : List Nat := []
  fab : Tbl FabPort := []
  node : FabNode := {}
  img : ImgVer := {}
  /-- A management restart is in progress (R641). -/
  restart : Bool := false
  life : Life := .up
  ptp : PtpSt := {}
  pair : PairSt := {}
  wkr : WkrSt := {}
  intc : IntcSt := {}
  pwr : PwrSt := {}
  therm : ThermSt := {}
  health : HealthSt := {}
  upd : UpdSt := {}
  deriving DecidableEq, Repr, Inhabited

/-- What outlives a reset of the part: the boot record (R631), of which the slots are always three distinct ones;
the fuses (R6, R633, R634); the straps (R514, R676); whether a second Lid watchdog expiry is due and when the
first came (R646). -/
structure Boot where
  active : Fin 3 := 0
  previous : Fin 3 := 1
  staging : Fin 3 := 2
  staged : Bool := false
  confirmed : Bool := false
  fails : Nat := 0
  keyHash : Tbl Nat := []
  keyRevoke : Nat := 0
  secFloor : Nat := 0
  serial : Nat := 0
  extended : Bool := false
  fusedAge : Tbl Nat := []
  /-- Periods of 720 powered hours that have passed (R601). -/
  ageRuns : Nat := 0
  side : Bool := false
  testEn : Bool := false
  refOk : Bool := true
  railsLost : List Nat := []
  dogAt : Option Nat := none
  /-- Resets so far (the model's own, DESIGN CHOICE, log 52). -/
  resets : Nat := 0
  deriving DecidableEq, Repr, Inhabited

/-- The block: the queue of waiting commands, first in first out, and what the part holds. -/
structure State where
  pending : List Instr := []
  dev : Dev := {}
  mem : Mem := {}
  boot : Boot := {}
  deriving DecidableEq, Repr, Inhabited

/-- The part in Run at the end of Upsett with every register at its reset value and nothing waiting
(R622, R657, DESIGN CHOICE, log 1). -/
def State.reset : State := {}

end Sys2Proof.Machine
end

