-- ==== Sys2Proof/Machine/Table.lean ====
section
/-!
DEFINITION. Sparse tables in one canonical form: keys strictly rising, no entry equal to what an
unlisted key reads as. Registers, memories and every indexed piece of the state are such tables.
-/

namespace Sys2Proof.Machine

/-- What key `k` reads as; `d` says what an unlisted key reads as. -/
def tget {α : Type} (d : Nat → α) : Tbl α → Nat → α
  | [], k => d k
  | (k', v) :: r, k => if k = k' then v else tget d r k

/-- `t` without the entry of key `k`. -/
def tdel {α : Type} : Tbl α → Nat → Tbl α
  | [], _ => []
  | (k', v) :: r, k => if k = k' then tdel r k else (k', v) :: tdel r k

/-- `t` with the entry of key `k` replaced by `v`, keys kept rising. -/
def tins {α : Type} : Tbl α → Nat → α → Tbl α
  | [], k, v => [(k, v)]
  | (k', v') :: r, k, v =>
    if k < k' then (k, v) :: (k', v') :: r
    else if k = k' then (k, v) :: r
    else (k', v') :: tins r k v

/-- A write keeps the canonical form: writing what an unlisted key reads as removes the entry. -/
def tput {α : Type} [DecidableEq α] (d : Nat → α) (t : Tbl α) (k : Nat) (v : α) : Tbl α :=
  if v = d k then tdel t k else tins t k v

/-- Keys strictly rising from `lo`, and no entry at its default. -/
def twfFrom {α : Type} [DecidableEq α] (d : Nat → α) : Nat → Tbl α → Bool
  | _, [] => true
  | lo, (k, v) :: r => decide (lo ≤ k) && decide (v ≠ d k) && twfFrom d (k + 1) r

/-- The canonical form of a table. -/
def twf {α : Type} [DecidableEq α] (d : Nat → α) (t : Tbl α) : Bool := twfFrom d 0 t

/-- Entry `k` of a table whose unlisted entries are the type's reset value. -/
def tat {α : Type} [Inhabited α] (t : Tbl α) (k : Nat) : α := tget (fun _ => default) t k

/-- Store `v` at `k` in a table whose unlisted entries are the type's reset value. -/
def tset {α : Type} [Inhabited α] [DecidableEq α] (t : Tbl α) (k : Nat) (v : α) : Tbl α :=
  tput (fun _ => default) t k v

/-- Change entry `k`. -/
def tmod {α : Type} [Inhabited α] [DecidableEq α] (t : Tbl α) (k : Nat) (f : α → α) : Tbl α :=
  tset t k (f (tat t k))

/-- `n` consecutive cells of a byte memory from address `a`. -/
def mread (d : Nat → Byte) (m : Tbl Byte) (a n : Nat) : List Byte :=
  (List.range n).map (fun i => tget d m (a + i))

/-- Store bytes at consecutive addresses from `a`. -/
def mwrite (d : Nat → Byte) : Tbl Byte → Nat → List Byte → Tbl Byte
  | m, _, [] => m
  | m, a, b :: bs => mwrite d (tput d m a b) (a + 1) bs

/-- Put `x` in its place in a sorted list, behind those not above it. -/
def isortIns {α : Type} (le : α → α → Bool) (x : α) : List α → List α
  | [] => [x]
  | y :: r => if le x y then x :: y :: r else y :: isortIns le x r

/-- A stable sort. -/
def isort {α : Type} (le : α → α → Bool) : List α → List α
  | [] => []
  | x :: r => isortIns le x (isort le r)

end Sys2Proof.Machine
end

