-- ==== Sys2Proof/Machine/Ops.lean ====
section
/-!
DEFINITION. The named operations every block shares: register fields, saturating counters, events,
errors, and the two images of a shadow register.
-/

namespace Sys2Proof.Machine

/-- What the host image of the word at BAR0 offset `a` holds. -/
def reg (d : Dev) (a : Nat) : Word := tget regReset d.regs a

/-- Replace the host image of a word. -/
def setReg (d : Dev) (a : Nat) (w : Word) : Dev := { d with regs := tput regReset d.regs a w }

/-- The value in force of the shadow word at `a` (R660). -/
def inForce (d : Dev) (a : Nat) : Word := tget regReset d.force a

/-- Replace the value in force of a word. -/
def setForce (d : Dev) (a : Nat) (w : Word) : Dev := { d with force := tput regReset d.force a w }

/-- Field [hi:lo] of a register as the host reads it. -/
def rf (d : Dev) (a hi lo : Nat) : Nat := fld (reg d a) hi lo

/-- One bit of a register as the host reads it. -/
def rb (d : Dev) (a i : Nat) : Bool := bitOf (reg d a) i

/-- Field [hi:lo] of a shadow register's value in force. -/
def ff (d : Dev) (a hi lo : Nat) : Nat := fld (inForce d a) hi lo

/-- One bit of a shadow register's value in force. -/
def fb (d : Dev) (a i : Nat) : Bool := bitOf (inForce d a) i

/-- Hardware sets field [hi:lo] of a register (access RO/H of R14). -/
def poke (d : Dev) (a hi lo v : Nat) : Dev := setReg d a (putFld (reg d a) hi lo v)

/-- Hardware sets or clears one bit of a register. -/
def pokeBit (d : Dev) (a i : Nat) (b : Bool) : Dev := setReg d a (putBit (reg d a) i b)

/-- A counter in field [hi:lo] that saturates (R14). -/
def countBy (d : Dev) (a hi lo n : Nat) : Dev :=
  poke d a hi lo (satInc (hi + 1 - lo) (rf d a hi lo) n)

/-- A saturating 32-bit counter register. -/
def count (d : Dev) (a : Nat) : Dev := countBy d a 31 0 1

/-- A wrapping counter in field [hi:lo]. -/
def wrapBy (d : Dev) (a hi lo n : Nat) : Dev := poke d a hi lo (rf d a hi lo + n)

/-- A 64-bit value held in force in a LO and HI pair, LO at `a`, HI at `a + 4`. -/
def force64 (d : Dev) (a : Nat) : Nat := (inForce d a).toNat + (inForce d (a + 4)).toNat * 2 ^ 32

/-- A 64-bit value written in a LO and HI pair. -/
def reg64 (d : Dev) (a : Nat) : Nat := (reg d a).toNat + (reg d (a + 4)).toNat * 2 ^ 32

/-- The values in force numbered `v` (R174). -/
def forceOf (d : Dev) (v : Nat) : Tbl Word := if v = d.ver then d.force else tget (fun _ => []) d.past v

/-- The word at `a` of a set of values in force. -/
def vw (f : Tbl Word) (a : Nat) : Word := tget regReset f a

/-- Field [hi:lo] of the word at `a` of a set of values in force. -/
def vf (f : Tbl Word) (a hi lo : Nat) : Nat := fld (vw f a) hi lo

/-- One bit of the word at `a` of a set of values in force. -/
def vb (f : Tbl Word) (a i : Nat) : Bool := bitOf (vw f a) i

/-- Log something that leaves the part. -/
def emit (d : Dev) (o : Out) : Dev := { d with out := o :: d.out }

/-- The interrupt source number of a page (R544). -/
def pageSource (pg : Nat) : Nat :=
  match pageInfo pg with
  | none => 255
  | some p => p.source

/-- The MSI-X vector of an enabled event of Border or the host interface (R362). -/
def evtVector (pg b : Nat) : Option Nat :=
  if pg = pgBorder then some (if b = 0 ∨ b = 4 then 5 else 6)
  else if pg = pgHif then some 6
  else none

/-- A Wicker pulse producer fires on the present edge (R545). -/
def firePulse (d : Dev) (code : Nat) : Dev :=
  let d := { d with wkr := { d.wkr with fired := tset d.wkr.fired code (some d.cycle) } }
  emit d (.pulse code)

/-- Event `b` of page `pg` occurs: its EVT_PEND bit is set and its Wicker producer fires (R545, R15); an
enabled event of Border or the host interface also sends its message (R362). -/
def evt (d : Dev) (pg b : Nat) : Dev :=
  let d := firePulse (pokeBit d (ra pg 0x010) b true) (32 * pageSource pg + b)
  match evtVector pg b with
  | some v => if rb d (ra pg 0x014) b then emit d (.msix v) else d
  | none => d

/-- The level of the page's interrupt source (R544). -/
def pageLevel (d : Dev) (pg : Nat) : Bool :=
  decide (reg d (ra pg 0x010) &&& reg d (ra pg 0x014) ≠ 0)

/-- Whole seconds of the counter (R43). -/
def timeSec (d : Dev) : Nat := d.time.now / 2 ^ 32 / 1000000000

/-- Nanoseconds of the counter (R43). -/
def timeNs (d : Dev) : Nat := d.time.now / 2 ^ 32 % 1000000000

/-- The counter in units of 2^-16 ns, as stamps carry it (R43, R493). -/
def timeStamp (d : Dev) : Nat := d.time.now / 2 ^ 16

/-- An error is raised by page `pg`: its header keeps the first and counts all (R657), and the error
goes to the error controller with its context (R609). -/
def raise (d : Dev) (pg code sev level detail : Nat) : Dev :=
  let d := if rb d (ra pg 0x018) 21 then d
    else setReg d (ra pg 0x018) (wpack [(24, 8, code), (22, 2, sev), (21, 1, 1), (0, 21, detail)])
  let d := count d (ra pg 0x01C)
  let e : ErrEvent := {
    code := code, sev := sev, level := level, src := pageSource pg % 128, detail := detail % 2 ^ 32,
    sec := timeSec d % 2 ^ 32, ns := timeNs d, sysLine := d.pos.sysLine }
  { d with errIn := d.errIn ++ [e] }

/-- An error whose detail R609 does not name (DESIGN CHOICE, log 58). -/
def raiseOpen (d : Dev) (pg code sev level : Nat) : Dev := raise d pg code sev level (Config.errDetail code d.cycle).toNat

/-- The pages whose registers hold a shadow bit. -/
def isShadowPage (pg : Nat) : Bool :=
  match pageInfo pg with
  | none => false
  | some p => p.shadow

/-- The first wale of a list whose WALEww_IN_SRC names camera port `n`, with its context (R161, R170). -/
def ctxOfPortFrom (f : Tbl Word) (n : Nat) : List Nat → Option (Nat × Nat)
  | [] => none
  | w :: ws =>
    let s := vw f (ra (pgIn w) 0x100)
    if bitOf s 30 then ctxOfPortFrom f n ws
    else if fld s 19 16 = n then some (w, 0)
    else if bitOf s 31 ∧ fld s 11 8 = n then some (w, 1)
    else ctxOfPortFrom f n ws

/-- The wale and context that serve camera port `n` under a set of values in force, if any. -/
def ctxOfPort (f : Tbl Word) (n : Nat) : Option (Nat × Nat) := ctxOfPortFrom f n (List.range 16)

/-- The camera port that context `x` of wale `w` serves, if any. -/
def portOfCtx (f : Tbl Word) (w x : Nat) : Option Nat :=
  let s := vw f (ra (pgIn w) 0x100)
  if bitOf s 30 then none
  else if x = 0 then some (fld s 19 16)
  else if bitOf s 31 then some (fld s 11 8) else none

/-- The enabled station whose CAM_MASK holds camera port `n`, if any (R58). -/
def stationOf (f : Tbl Word) (n : Nat) : Option Nat :=
  (List.range 8).find? (fun ss => vb f (ra pgPos (0x200 + 0x20 * ss)) 19 && vb f (ra pgPos (0x200 + 0x20 * ss)) n)

/-- The encoder channel of station `ss` (R23, R57). -/
def encOf (f : Tbl Word) (ss : Nat) : Nat := vf f (ra pgPos (0x200 + 0x20 * ss)) 18 16

/-- Context register block of a wale page: context B lies 0x400 above context A (R205). -/
def cx (pg x o : Nat) : Nat := ra pg (0x400 * x + o)

/-- The first and last system column that context `x` of wale `w` owns (R209, R237). -/
def ownedSpan (f : Tbl Word) (w x : Nat) : Nat × Nat :=
  (vf f (cx (pgGeom w) x 0x10C) 19 0, vf f (cx (pgGeom w) x 0x110) 19 0)

/-- Whether skein port `n` is enabled. -/
def portOn (f : Tbl Word) (n : Nat) : Bool := vb f (ra (pgSkein n) 0x100) 31

/-- The throttle step S in force (R588). -/
def throttleStep (d : Dev) : Nat := rf d (ra pgTherm 0x108) 18 16

/-- PAIR_STAT.STATE (R517): 0 OFF, 1 SOLO, 2 JOINING, 3 STANDBY, 4 PROTECTED, 5 UNPROTECTED, 6 UNSYNCED. -/
def pairState (d : Dev) : Nat := rf d (ra pgPair 0x104) 31 29

/-- The part is a member of a Pairing (R542). -/
def pairEn (d : Dev) : Bool := rb d (ra pgPair 0x100) 31

/-- The part is a standby part: JOINING, STANDBY or UNSYNCED (R519). -/
def standby (d : Dev) : Bool := pairEn d && (decide (pairState d = 2) || decide (pairState d = 3) || decide (pairState d = 6))

/-- The part is active in a Pairing (R517). -/
def pairActive (d : Dev) : Bool := pairEn d && (decide (pairState d = 1) || decide (pairState d = 4) || decide (pairState d = 5))

/-- The part drives no pin and delivers no record: it is standby, undecided, or has not yet held its claim (R518,
R519). -/
def pairMuted (d : Dev) : Bool := pairEn d && (!pairActive d || d.pair.claimed.isSome)

/-- What an unlisted byte of every memory but the flash reads as (DESIGN CHOICE, log 4). -/
def zeroByte (_ : Nat) : Byte := 0

/-- What an unlisted byte of LPDDR5X reads as: free where its contents were lost (R429), else zero. -/
def lpxDef (m : Mem) (a : Nat) : Byte :=
  match m.lpxLost.zipIdx.find? (fun r => decide (r.1.1 ≤ a ∧ a ≤ r.1.2)) with
  | some r => Config.lpxByte (m.lpxLost.length - r.2) a
  | none => 0

/-- What an erased byte of flash reads as (R629, PRESUMED, log 4). -/
def flashByte (_ : Nat) : Byte := 0xFF

/-- Every byte memory is in canonical form: addresses rising, no entry equal to what an unlisted address reads as. -/
def Memory.wf (m : Mem) : Bool :=
  twf zeroByte m.host && twf (lpxDef m) m.lpx && twf zeroByte m.tbl && twf zeroByte m.qdr && twf zeroByte m.handle &&
    twf zeroByte m.win && twf flashByte m.flash

/-- `n` bytes of the wale table windows as a little-endian number (R185, R11). -/
def tblNat (m : Mem) (a n : Nat) : Nat := ofLeBytes (mread zeroByte m.tbl a n)

end Sys2Proof.Machine
end

