-- ==== Sys2Proof/Machine/Operands.lean ====
section
/-!
DEFINITION. The formats that leave the part: records and their kinds (R324 to R335), the web position of
a stamp (R24), and the merging of gap lines into records (R158).
-/

namespace Sys2Proof.Machine

/-- The invalid web position 0x8000_0000_0000_0000 (R21). -/
def webInvalid : Int := -(2 : Int) ^ 63

/-- The web position of count `t`, fraction `fr`, under pitch `p` and offset `o` (R24, R21); a result
outside the signed 64-bit range is replaced by the invalid value (R26). -/
def webPos (t : Int) (fr p : Nat) (o : Int) : Int :=
  if p = 0 then webInvalid
  else
    let w := roundShr ((t * 65536 + fr) * p) 40 + o
    if w < -(2 : Int) ^ 63 ∨ w ≥ (2 : Int) ^ 63 then webInvalid else w

/-- Whether R26 replaces the position: the pitch is set and the result leaves the range. -/
def webRange (t : Int) (fr p : Nat) (o : Int) : Bool :=
  let w := roundShr ((t * 65536 + fr) * p) 40 + o
  decide (p ≠ 0) && (decide (w < -(2 : Int) ^ 63) || decide (w ≥ (2 : Int) ^ 63))

/-- Tick pitch of encoder channel `c` (R20). -/
def pitchOf (f : Tbl Word) (c : Nat) : Nat :=
  (vw f (ra (pgEnc c) 0x108)).toNat + (vw f (ra (pgEnc c) 0x10C)).toNat * 2 ^ 32

/-- Station offset (R23). -/
def stnOffset (f : Tbl Word) (ss : Nat) : Int :=
  toSigned 64 ((vw f (ra pgPos (0x204 + 0x20 * ss))).toNat + (vw f (ra pgPos (0x208 + 0x20 * ss))).toNat * 2 ^ 32)

/-- Camera offset (R25). -/
def camOffset (f : Tbl Word) (n : Nat) : Int := toSigned 32 (vw f (ra pgPos (0x300 + 4 * n))).toNat

/-- W6 of a record: seconds, low 32 bits, and nanoseconds of a time in 2^-16 ns (R324, R47). -/
def recW6 (t : Nat) : Dword :=
  let ns := t / 65536
  dpack [(32, 32, ns / 1000000000), (2, 30, ns % 1000000000)]

/-- The origin node of a record: the node ID, or 0 off a fabric (R325). -/
def originNode (d : Dev) : Nat := if rb d (ra pgFab 0x100) 31 then rf d (ra pgFab 0x104) 5 0 else 0

/-- W0 of a record. `fl` is the flag field [59:48] but for TIME_UNSET and STATION (R324, R327). -/
def recW0 (d : Dev) (typ fl station cls coil : Nat) : Dword :=
  dpack [(60, 4, typ), (52, 8, fl / 16), (51, 1, (!d.time.valid).toNat), (48, 3, station), (40, 8, cls),
    (32, 8, originNode d), (0, 32, coil)]

/-- A signed field of `n` bits. -/
def sf (n : Nat) (x : Int) : Nat := wrapNat n x

/-- A gap record: cause, span and extent (R328). Its flags hold the cause in W0[59:54] and EPOCH_SPAN. -/
def gapRec (d : Dev) (g : GapRun) (count : Nat) : Rec where
  w0 := recW0 d 2 (g.cause * 64 + (if g.first.epoch = g.last.epoch then 0 else 16)) g.station g.cls g.firstNo
  w1 := dpack [(0, 8, g.first.epoch)]
  w2 := dpack [(0, 64, sf 64 g.first.web)]
  w3 := dpack [(0, 64, sf 64 g.last.web)]
  w4 := dpack [(40, 24, min count 0xFFFFFF), (20, 20, g.left), (0, 20, g.width)]
  w5 := 0
  w6 := recW6 g.first.time

/-- Queue a gap record for Border, with the system line of its last line (R338). -/
def pushGap (d : Dev) (r : Rec) (last : Nat) : Dev := { d with bin := { d.bin with gaps := d.bin.gaps ++ [(r, last)] } }

/-- Queue a position note for Border (R338). -/
def pushNote (d : Dev) (r : Rec) : Dev := { d with bin := { d.bin with notes := d.bin.notes ++ [r] } }

/-- Queue a marker for Border (R338). -/
def pushMarker (d : Dev) (r : Rec) : Dev := { d with bin := { d.bin with markers := d.bin.markers ++ [r] } }

/-- Queue a coil record of lines `a` to `b` for Border (R338). -/
def pushCoil (d : Dev) (r : Rec) (a b : Nat) : Dev :=
  { d with bin := { d.bin with coils := d.bin.coils ++ [{ body := r, first := a, last := b }] } }

/-- Close a merged gap: its record goes to Border with the count of its lines (R158). -/
def closeGap (d : Dev) (g : GapRun) : Dev := pushGap d (gapRec d g (g.lastNo + 1 - g.firstNo)) g.last.sysLine

/-- One piece of a gap line: cause, left column, width, class field. -/
structure GapPiece where
  cause : Nat
  left : Nat
  width : Nat
  cls : Nat := 0xFF
  deriving DecidableEq, Repr

/-- Whether line `no` of a piece extends a merged gap: consecutive, one cause, one span (R158). -/
def extends' (g : GapRun) (p : GapPiece) (station no : Nat) : Bool :=
  decide (g.cause = p.cause ∧ g.left = p.left ∧ g.width = p.width ∧ g.cls = p.cls ∧ g.station = station ∧
    g.lastNo + 1 = no ∧ no % 256 ≠ 0)

/-- The run a piece of line `no` belongs to after that line. -/
def growGap (runs : List GapRun) (station no : Nat) (st : Stamp) (p : GapPiece) : GapRun :=
  match runs.find? (fun g => extends' g p station no) with
  | some g => { g with lastNo := no, last := st }
  | none =>
    { cause := p.cause, left := p.left, width := p.width, cls := p.cls, station := station,
      firstNo := no, lastNo := no, first := st, last := st }

/-- Line `no` of a producer resolves with the given pieces: gaps not continued by it close, and at the
end of its block of 256 lines every gap closes (R158, R330). -/
def mergeGaps (d : Dev) (runs : List GapRun) (station no : Nat) (st : Stamp) (ps : List GapPiece) :
    Dev × List GapRun :=
  let ps := ps.eraseDups
  let closed := runs.filter (fun g => !ps.any (fun p => extends' g p station no))
  let d := closed.foldl closeGap d
  let kept := ps.map (growGap runs station no st)
  if no % 256 = 255 then (kept.foldl closeGap d, []) else (d, kept)

/-- Close every merged gap of a producer (R158). -/
def flushGaps (d : Dev) (runs : List GapRun) : Dev := runs.foldl closeGap d

/-- The class field of a gap of context `x` of a wale (R328). -/
def gapCls (w x : Nat) : Nat := w * 16 + x * 8

/-- A position note of the given kind for station `ss` (R332). -/
def noteRec (d : Dev) (kind station ch : Nat) (line : Nat) (move before after dev : Int) : Rec where
  w0 := recW0 d 4 (kind * 64) station ch 0
  w1 := dpack [(0, 8, d.pos.epoch)]
  w2 := dpack [(0, 64, line)]
  w3 := dpack [(0, 64, sf 64 move)]
  w4 := dpack [(0, 64, sf 64 before)]
  w5 := dpack [(0, 64, sf 64 after)]
  w6 := recW6 (timeStamp d)
  w7 := dpack [(32, 32, sf 32 dev), (0, 16, 0xFFFF)]

/-- A marker of the given subtype (R334). -/
def markerRec (d : Dev) (sub loc : Nat) (w2 w3 w4 : Nat) : Rec where
  w0 := recW0 d 3 (sub * 64 + loc * 32) 0 0 0
  w1 := dpack [(0, 8, d.pos.epoch)]
  w2 := dpack [(0, 64, w2)]
  w3 := dpack [(0, 64, w3)]
  w4 := dpack [(0, 64, w4)]
  w5 := 0
  w6 := recW6 (timeStamp d)

end Sys2Proof.Machine
end

