-- ==== Sys2Proof/Machine/Rom.lean ====
section
/-!
DEFINITION. The fixed-response ROM of R116: sixteen responses of 64 phases by 8 taps, computed from their
definition in integers scaled by 2^256, wide enough to decide the side of each rounding.
-/

namespace Sys2Proof.Machine

/-- One, in the fixed-point scale of the ROM's evaluation. -/
def romOne : Int := (2 : Int) ^ 256

/-- Product of two scaled integers. -/
def romMul (a b : Int) : Int := a * b / romOne

/-- `atan(1/n)` by its series, `fuel` terms from power `p = 1/n^(2j+1)`. -/
def romAtan (n : Int) : Nat → Nat → Int → Int
  | 0, _, _ => 0
  | fuel + 1, j, p => (if j % 2 = 0 then p / (2 * j + 1) else - (p / (2 * j + 1))) + romAtan n fuel (j + 1) (p / (n * n))

/-- π in the ROM's scale, by Machin's formula. -/
def romPi : Int := 16 * romAtan 5 120 0 (romOne / 5) - 4 * romAtan 239 40 0 (romOne / 239)

/-- `I0(z)` as the series in `q = z²/4`: the term `t` is `q^n / (n!)²`. -/
def romI0 (q : Int) : Nat → Nat → Int → Int
  | 0, _, _ => 0
  | fuel + 1, n, t => t + romI0 q fuel (n + 1) (romMul t q / ((n + 1) * (n + 1)))

/-- `sin(y)/y` as the series in `y²`. -/
def romSinc (y2 : Int) : Nat → Nat → Int → Int
  | 0, _, _ => 0
  | fuel + 1, n, t => t + romSinc y2 fuel (n + 1) (- (romMul t y2 / ((2 * n + 2) * (2 * n + 3))))

/-- fc of a Kaiser response in hundredths (R116). -/
def romFc (id : Nat) : Nat := [100, 90, 80, 70, 60, 50, 40, 30, 25, 20, 15, 10].getD id 100

/-- β of a Kaiser response (R116). -/
def romBeta (id : Nat) : Nat := if id < 8 then 6 else 8

/-- g at 64·x of a Kaiser response, without the factor 1/I0(β) that the normalisation removes. -/
def romKaiser (id : Nat) (x : Int) : Int :=
  let fx := (romFc id : Int) * x
  let y2 := romMul romPi romPi * (fx * fx) / (6400 * 6400)
  let q := romOne * ((romBeta id * romBeta id : Nat) : Int) * (65536 - x * x) / (65536 * 4)
  romMul (romSinc y2 90 0 romOne) (romI0 q 90 0 romOne)

/-- g at 64·x of the cubic-convolution kernel with a = −0.5, scaled by 2·64³ (R116). -/
def romCubic (x : Int) : Int :=
  let a := if x < 0 then -x else x
  if a ≤ 64 then 3 * a * a * a - 5 * a * a * 64 + 2 * 64 * 64 * 64
  else if a < 128 then - (a * a * a) + 5 * a * a * 64 - 8 * a * 64 * 64 + 4 * 64 * 64 * 64
  else 0

/-- g at 64·x of response `id`, in any common scale. -/
def romG (id : Nat) (x : Int) : Int :=
  if id < 12 then romKaiser id x
  else if id = 12 then (let a := if x < 0 then -x else x; if a < 64 then 64 - a else 0)
  else romCubic x

/-- Index and magnitude of the largest of a list of coefficients, the lowest index on a tie. -/
def romPeak : List Int → Nat → Nat → Nat → Nat
  | [], _, best, _ => best
  | c :: cs, i, best, mag => if c.natAbs > mag then romPeak cs (i + 1) i c.natAbs else romPeak cs (i + 1) best mag

/-- The eight coefficients of response `id` at phase `ph`, in S2.14 (R116). -/
def romRow (id ph : Nat) : List Int :=
  if id = 14 then (List.range 8).map (fun k => if (k = 3 ∧ ph < 32) ∨ (k = 4 ∧ 32 ≤ ph) then 16384 else 0)
  else if id = 15 then List.replicate 8 2048
  else
    let g := (List.range 8).map (fun k : Nat => romG id (64 * ((k : Int) - 3) - ph))
    let s := g.foldl (· + ·) 0
    let c := g.map (fun x => (2 * 16384 * x + s) / (2 * s))
    let r := 16384 - c.foldl (· + ·) 0
    let p := romPeak c 0 0 0
    c.modify p (· + r)

/-- Coefficient c[φ][k] of response `id` (R116). -/
def rom (id ph k : Nat) : Int := (romRow id ph).getD k 0

end Sys2Proof.Machine
end

