-- ==== Sys2Proof/Machine/Coil.lean ====
section
/-!
DEFINITION. The coil context and its arithmetic: features, folding, the reported features, the rule table,
and the record a coil becomes (R298 to R307).
-/

namespace Sys2Proof.Machine

/-- AREA at its saturated value (R298). -/
def areaMax : Nat := 0xFFFFFFFF

/-- LAST of a coil (R287). -/
def coilLast (c : Coil) : Nat := c.first + c.span

/-- One step of the moment scale (R300). -/
def scaleUp (c : Coil) : Coil :=
  { c with mscale := c.mscale + 1, sx := shr c.sx 1, sy := shr c.sy 1, sxx := shr c.sxx 2, syy := shr c.syy 2,
           sxy := shr c.sxy 2 }

/-- The five moment accumulators (R298). -/
inductive Mom where
  | sx | sy | sxx | syy | sxy
  deriving DecidableEq, Repr

/-- The order of an accumulator: its `k` in R300. -/
def momK : Mom → Nat
  | .sx | .sy => 1
  | .sxx | .syy | .sxy => 2

/-- The stored value of an accumulator. -/
def momGet (c : Coil) : Mom → Int
  | .sx => c.sx
  | .sy => c.sy
  | .sxx => c.sxx
  | .syy => c.syy
  | .sxy => c.sxy

/-- Replace the stored value of an accumulator. -/
def momSet (c : Coil) (a : Mom) (v : Int) : Coil :=
  match a with
  | .sx => { c with sx := v }
  | .sy => { c with sy := v }
  | .sxx => { c with sxx := v }
  | .syy => { c with syy := v }
  | .sxy => { c with sxy := v }

/-- Whether a value fits an accumulator's field (R298). -/
def momFits (a : Mom) (v : Int) : Bool :=
  match a with
  | .sx | .sxy => decide (-(2 : Int) ^ 31 ≤ v ∧ v < (2 : Int) ^ 31)
  | .sy | .syy => decide (0 ≤ v ∧ v < (2 : Int) ^ 32)
  | .sxx => decide (0 ≤ v ∧ v < (2 : Int) ^ 40)

/-- `add(acc, v, k)` of R300 within `fuel` steps of the scale. -/
def addMomLoop (a : Mom) (v : Int) : Nat → Coil → Coil
  | 0, c => { c with momOvf := true }
  | fuel + 1, c =>
    let nv := momGet c a + shr v (momK a * c.mscale)
    if momFits a nv then momSet c a nv
    else if c.mscale ≥ 15 then { c with momOvf := true }
    else addMomLoop a v fuel (scaleUp c)

/-- `add` of R300; with MOMENT_OVF set the moments no longer change. -/
def addMom (c : Coil) (a : Mom) (v : Int) : Coil := if c.momOvf then c else addMomLoop a v 17 c

/-- The real value of an accumulator (R301). -/
def momReal (c : Coil) (a : Mom) : Int := momGet c a * (2 : Int) ^ (momK a * c.mscale)

/-- `F(k) = k(k+1)(2k+1) ÷ 6` (R299). -/
def sumSq (k : Int) : Int := k * (k + 1) * (2 * k + 1) / 6

/-- A saturated AREA sets MOMENT_OVF (R300). -/
def areaOvf (c : Coil) : Coil := if c.area ≥ areaMax then { c with momOvf := true } else c

/-- A new coil opened by the run that starts at column `a` of line `n` (R283). -/
def newCoil (id n a b station : Nat) : Coil :=
  { id := id, first := n, origin := a, left := a, right := b, station := station, born := n }

/-- Features start afresh with line `n`, whose first run of the coil starts at `a` (R288, R316). -/
def restart (c : Coil) (n a b : Nat) : Coil :=
  { newCoil c.id n a b c.station with
    named := c.named, gapAdj := c.gapAdj, seam := c.seam, trib := c.trib, split := c.split, born := c.born }

/-- Run `r` of line `n` is added to its coil (R299). `ov` columns lie below the coil's own columns of the line
before; `h` tells that the run joins one to its left on the same line. -/
def addRun (c : Coil) (n : Nat) (r : Run) (ov : Nat) (h : Bool) : Coil :=
  let c := if c.area = 0 then restart c n r.start r.fin else c
  let len := r.fin + 1 - r.start
  let x0 : Int := (r.start : Int) - c.origin
  let x1 : Int := (r.fin : Int) - c.origin
  let y : Int := (n : Int) - c.first
  let m1 := (x0 + x1) * len / 2
  let c := areaOvf { c with
    area := min (c.area + len) areaMax
    sum := min (c.sum + r.sum) (2 ^ 48 - 1)
    runs := min (c.runs + 1) 0xFFFF
    min := Nat.min c.min r.min
    max := Nat.max c.max r.max
    cls := c.cls ||| r.cls
    peak := if r.peak.natAbs > c.peak.natAbs then r.peak else c.peak
    left := Nat.min c.left r.start
    right := Nat.max c.right r.fin
    span := n - c.first
    perim := min (c.perim + 2 * len + 2 - 2 * ov - 2 * h.toNat) 0xFFFF }
  let c := addMom c .sx m1
  let c := addMom c .sy (len * y)
  let c := addMom c .sxx (sumSq x1 - sumSq (x0 - 1))
  let c := addMom c .syy (len * (y * y))
  addMom c .sxy (m1 * y)

/-- Store a real moment into an accumulator, at the least scale from the present one that holds it. -/
def fitMom (a : Mom) (v : Int) (c : Coil) : Coil := addMom (momSet c a 0) a v

/-- `rebase(K, dx, dy)` of R302: the sums of K about a point `dx`, `dy` away, rescaled by R300. -/
def rebase (c : Coil) (dx dy : Int) : Coil :=
  let n : Int := c.area
  let sx := momReal c .sx
  let sy := momReal c .sy
  let xx := momReal c .sxx + 2 * dx * sx + n * (dx * dx)
  let yy := momReal c .syy + 2 * dy * sy + n * (dy * dy)
  let xy := momReal c .sxy + dx * sy + dy * sx + n * dx * dy
  if c.momOvf ∨ (dx = 0 ∧ dy = 0) then c
  else
    fitMom .sxy xy (fitMom .syy yy (fitMom .sxx xx (fitMom .sy (sy + n * dy) (fitMom .sx (sx + n * dx) c))))

/-- Bring a coil to moment scale `s` (R302). -/
def scaleTo (s : Nat) : Nat → Coil → Coil
  | 0, c => c
  | fuel + 1, c => if c.mscale < s then scaleTo s fuel (scaleUp c) else c

/-- The moments of Q, at P's scale or above, added to P's (R302). -/
def addMoms (p q : Coil) : Coil :=
  let s := max p.mscale q.mscale
  let q := scaleTo s 16 q
  [Mom.sx, .sy, .sxx, .syy, .sxy].foldl (fun p a => addMom p a (momReal q a)) (scaleTo s 16 p)

/-- Fold coil Q into survivor P (R302). -/
def foldCoil (p q : Coil) : Coil :=
  let st := { p with gapAdj := p.gapAdj || q.gapAdj, split := p.split || q.split, seam := p.seam || q.seam,
                     cut := p.cut || q.cut, born := min p.born q.born }
  if q.area = 0 then st
  else if p.area = 0 then
    { q with id := p.id, named := p.named, gapAdj := st.gapAdj, split := st.split, seam := st.seam, cut := st.cut,
             trib := p.trib, station := p.station, born := st.born }
  else
    let first := min p.first q.first
    let last := max (coilLast p) (coilLast q)
    let p1 := rebase p 0 ((p.first : Int) - first)
    let q1 := rebase q ((q.origin : Int) - p.origin) ((q.first : Int) - first)
    let ovf := p1.momOvf || q1.momOvf
    let m := if ovf then { p1 with momOvf := true } else addMoms p1 q1
    areaOvf { m with
      gapAdj := st.gapAdj, split := st.split, seam := st.seam, cut := st.cut, born := st.born
      first := first
      span := last - first
      area := min (p.area + q.area) areaMax
      sum := min (p.sum + q.sum) (2 ^ 48 - 1)
      runs := min (p.runs + q.runs) 0xFFFF
      perim := min (p.perim + q.perim) 0xFFFF
      min := Nat.min p.min q.min
      max := Nat.max p.max q.max
      peak := if q.peak.natAbs > p.peak.natAbs then q.peak else p.peak
      cls := p.cls ||| q.cls
      left := Nat.min p.left q.left
      right := Nat.max p.right q.right }

/-- STATE of a coil context (R298). -/
def coilState (c : Coil) : Nat :=
  128 * c.named.toNat + 64 * c.gapAdj.toNat + 32 * c.momOvf.toNat + 16 * c.seam.toNat + 8 * c.trib.toNat +
    4 * c.split.toNat + 2 * c.cut.toNat

/-- The eight words of a coil context (R298). -/
def coilWords (c : Coil) : List Dword :=
  [dpack [(32, 32, c.id), (0, 32, c.first)],
   dpack [(40, 24, c.span), (20, 20, c.left), (0, 20, c.right)],
   dpack [(32, 32, c.area), (12, 20, c.origin), (8, 4, c.cls), (0, 8, coilState c)],
   dpack [(16, 48, c.sum), (0, 16, sf 16 c.peak)],
   dpack [(48, 16, c.min), (32, 16, c.max), (16, 16, c.runs), (0, 16, c.perim)],
   dpack [(32, 32, sf 32 c.sx), (0, 32, sf 32 c.sy)],
   dpack [(24, 40, sf 40 c.sxx), (20, 4, c.mscale)],
   dpack [(32, 32, sf 32 c.syy), (0, 32, sf 32 c.sxy)]]

/-- The value with low bits `lo` (of `n` bits) nearest below or at line `cur` within half their range
(R298, R55). -/
def widenTo (n lo cur : Nat) : Nat := cur - (cur + 2 ^ n - lo % 2 ^ n) % 2 ^ n

/-- The coil a received context stands for, at line `cur` (R298, R320). -/
def coilOf (ws : List Dword) (station cur : Nat) : Coil :=
  let w := dwAt ws
  let st := dfld (w 2) 7 0
  { id := dfld (w 0) 63 32, first := widenTo 32 (dfld (w 0) 31 0) cur, span := dfld (w 1) 63 40,
    left := dfld (w 1) 39 20, right := dfld (w 1) 19 0, area := dfld (w 2) 63 32, origin := dfld (w 2) 31 12,
    cls := dfld (w 2) 11 8, named := st.testBit 7, gapAdj := st.testBit 6, momOvf := st.testBit 5,
    seam := st.testBit 4, trib := st.testBit 3, split := st.testBit 2, cut := st.testBit 1,
    sum := dfld (w 3) 63 16, peak := toSigned 16 (dfld (w 3) 15 0), min := dfld (w 4) 63 48,
    max := dfld (w 4) 47 32, runs := dfld (w 4) 31 16, perim := dfld (w 4) 15 0,
    sx := toSigned 32 (dfld (w 5) 63 32), sy := dfld (w 5) 31 0, sxx := dfld (w 6) 63 24,
    mscale := dfld (w 6) 23 20, syy := dfld (w 7) 63 32, sxy := toSigned 32 (dfld (w 7) 31 0),
    station := station, born := widenTo 32 (dfld (w 0) 31 0) cur }

/-- The real moments of a coil that R303 starts from, as the operands of its free values. -/
def momList (c : Coil) : List Int :=
  [c.area, momReal c .sx, momReal c .sy, momReal c .sxx, momReal c .syy, momReal c .sxy]

/-- a, b and c of R303 times 12·n². -/
def shapeA (c : Coil) : Int × Int × Int :=
  let n : Int := c.area
  let sx := momReal c .sx
  let sy := momReal c .sy
  (12 * (n * momReal c .sxx - sx * sx) + n * n, 12 * (n * momReal c .syy - sy * sy) + n * n,
    12 * (n * momReal c .sxy - sx * sy))

/-- The side of `k ≤ 256 × sqrt((S + R) ÷ (S − R))` with `R² = D`: −1 when k is below, 0 when equal, 1 above. -/
def elongSide (s dd : Int) (k : Nat) : Int :=
  let l := (k : Int) * k * (s * s - dd) - 65536 * (s * s + dd)
  let r := 131072 * s
  if l ≤ 0 then -1
  else if l * l < r * r * dd then -1
  else if l * l = r * r * dd then 0
  else 1

/-- The largest k below `hi` not above the elongation, by halving. -/
def elongFloor (s dd : Int) : Nat → Nat → Nat → Nat
  | 0, lo, _ => lo
  | fuel + 1, lo, hi =>
    let m := (lo + hi) / 2
    if lo + 1 ≥ hi then lo
    else if elongSide s dd m ≤ 0 then elongFloor s dd fuel m hi
    else elongFloor s dd fuel lo m

/-- Elongation of a coil (R303). -/
def elongation (c : Coil) : Nat :=
  if c.momOvf then 0xFFFF
  else
    let (a, b, cc) := shapeA c
    let s := a + b
    let dd := (a - b) * (a - b) + 4 * (cc * cc)
    if s * s - dd ≤ 0 ∨ s ≤ 0 then (Config.elongOpen (momList c)).toNat
    else
      let k := elongFloor s dd 17 0 0xFFFF
      if elongSide s dd k = 0 then k
      else min 0xFFFE (k + (Config.elongUp (momList c)).toNat)

/-- `atan(t)` for 0 ≤ t small, in the scale of the ROM, by its series in `t2 = t²`. -/
def atanSeries (t2 : Int) : Nat → Nat → Int → Int
  | 0, _, _ => 0
  | fuel + 1, j, p => p / (2 * j + 1) + atanSeries t2 fuel (j + 1) (- (romMul p t2))

/-- `tan(φ/2)` from `t = tan φ ≥ 0`: `t ÷ (1 + sqrt(1 + t²))`. -/
def halfTan (t : Int) : Int :=
  let r : Int := isqrt ((romOne * romOne + t * t).toNat)
  t * romOne / (romOne + r)

/-- The angle of the point (x, y), both not negative and not both 0, from the x axis, in the scale of the ROM. -/
def firstAngle (y x : Int) : Int :=
  let at' (p q : Int) : Int :=
    let t := halfTan (halfTan (halfTan (p * romOne / q)))
    8 * atanSeries (romMul t t) 50 0 t
  if y ≤ x then at' y x else romPi / 2 - at' x y

/-- `atan2(y, x)` in (−π, π], in the scale of the ROM. -/
def atan2 (y x : Int) : Int :=
  let m := firstAngle (y.natAbs : Int) (x.natAbs : Int)
  let m := if x < 0 then romPi - m else m
  if y < 0 then -m else m

/-- Orientation of a coil (R303). Where θ lies on a unit the value is that unit. -/
def orientation (c : Coil) : Nat :=
  if c.momOvf then 0xFFFF
  else
    let (a, b, cc) := shapeA c
    let y := 2 * cc
    let x := a - b
    if y = 0 ∧ x = 0 then 0
    else if y = 0 then (if x > 0 then 0 else 32768)
    else if x = 0 then (if y > 0 then 16384 else 65536 - 16384)
    else if y.natAbs = x.natAbs then
      wrapNat 16 ((if y < 0 then -1 else 1) * (if x > 0 then 8192 else 24576))
    else wrapNat 16 (atan2 y x * 32768 / romPi + ((Config.orientUp (momList c)).toNat : Int))

/-- Mean intensity of a coil (R303). -/
def meanOf (c : Coil) : Nat :=
  if c.area ≥ areaMax then 0xFFFF else (2 * c.sum + c.area) / (2 * c.area)

/-- A coil whose features are empty, with the values the spec states no result for filled in (R316). -/
def emptyFeatures (c : Coil) : Coil × Nat :=
  let w := Config.emptyCoil c.id
  ({ c with min := dfld w 15 0, max := dfld w 31 16, peak := toSigned 16 (dfld w 47 32) }, dfld w 63 48)

/-- Feature `k` of the rule table (R305). -/
def feature (c : Coil) (mean station k : Nat) : Int :=
  let width := c.right - c.left + 1
  let lines := c.span + 1
  match k with
  | 0 => c.area
  | 1 => width
  | 2 => lines
  | 3 => mean
  | 4 => c.min
  | 5 => c.max
  | 6 => c.peak
  | 7 => c.peak.natAbs
  | 8 => elongation c
  | 9 => orientation c
  | 10 => c.perim
  | 11 => c.runs
  | 12 => c.cls
  | 13 => station
  | 14 => (c.area * 65536 / (width * lines) : Nat)
  | _ => c.left

/-- Class, confidence and CLASS_FAULT of a walk of the rule table `node` from node `i` (R306). -/
def classifyFrom (node : Nat → Nat × Nat) (feat : Nat → Int) : Nat → Nat → Nat × Nat × Bool
  | 0, _ => (0, 0, true)
  | fuel + 1, i =>
    let w0 := (node i).1
    let v := feat (natField w0 35 32)
    let thr := toSigned 32 (natField w0 31 0)
    let t : Bool := match natField w0 37 36 with
      | 0 => decide (v < thr)
      | 1 => decide (v ≥ thr)
      | 2 => decide (v = thr)
      | _ => decide (BitVec.ofInt 64 v &&& BitVec.ofInt 64 thr ≠ 0)
    let leaf := if t then w0.testBit 38 else w0.testBit 39
    let value := if t then natField w0 47 40 else natField w0 55 48
    if leaf then (value, if t then natField w0 63 56 else natField (node i).2 7 0, false)
    else if value > i then classifyFrom node feat fuel value
    else (0, 0, true)

/-- The rule table of a station under values in force `f`: table CLASS_TBL in its bank (R304). -/
def classNode (m : Mem) (f : Tbl Word) (ss i : Nat) : Nat × Nat :=
  let t := vf f (ra pgTrk (0x200 + 0x20 * ss)) 29 27
  let b := (vb f (ra pgTrk 0x170) t).toNat
  let a := 0x1000 * (2 * t + b) + 16 * i
  (ofLeBytes (mread zeroByte m.qdr a 8), ofLeBytes (mread zeroByte m.qdr (a + 8) 8))

/-- What a coil's record is formed for (R307): `full` at a close or flush, `cont` at a cut, `gone` for an
absorbed named coil with the coil ID and node of the survivor. -/
inductive RecKind where
  | full (truncated : Bool)
  | cont
  | gone (coil node : Nat)
  deriving DecidableEq, Repr

/-- The place of a line in the stamp ring (R278). -/
def ringAt (d : Dev) (n : Nat) : Stamp := tat d.trk.ring (n % 262144)

/-- The record of coil `c`, with whether it carries CLASS_FAULT (R307). `gap` tells GAP_ADJ, `f` are the
values in force for its line. -/
def coilRec (m : Mem) (d : Dev) (f : Tbl Word) (k : RecKind) (c : Coil) (gap : Bool) (node : Nat) : Rec × Bool :=
  let e := if c.area = 0 then emptyFeatures c else (c, meanOf c)
  let cl := classifyFrom (classNode m f c.station) (feature e.1 e.2 c.station) 256 0
  let s0 := ringAt d c.first
  let s1 := ringAt d (coilLast c)
  let trunc := match k with | .full t => t | _ => false
  let gone := match k with | .gone _ _ => true | _ => false
  let full := match k with | .full _ => true | _ => false
  let fl := 0x800 * trunc.toNat + 0x400 * (full && c.named).toNat + 0x200 * gone.toNat + 0x100 * gap.toNat +
    0x80 * c.split.toNat + 0x40 * c.momOvf.toNat + 0x20 * cl.2.2.toNat +
    0x10 * (decide (s0.epoch % 65536 ≠ s1.epoch % 65536)).toNat
  let w0 := recW0 d (if full then 1 else 5) fl c.station cl.1 c.id
  let w0 := (w0 &&& ~~~ dpack [(32, 8, 0xFF)]) ||| dpack [(32, 8, node)]
  let w7 := match k with
    | .gone id nd => dpack [(32, 32, id), (24, 8, nd), (0, 16, 0xFFFF)]
    | _ => dpack [(48, 16, elongation e.1), (32, 16, orientation e.1), (16, 16, c.perim), (0, 16, 0xFFFF)]
  ({ w0 := w0
     w1 := dpack [(8, 8, cl.2.1), (0, 8, s0.epoch)]
     w2 := dpack [(0, 64, sf 64 s0.web)]
     w3 := dpack [(0, 64, sf 64 s1.web)]
     w4 := dpack [(40, 24, c.span + 1), (20, 20, c.left), (0, 20, c.right - c.left + 1)]
     w5 := dpack [(32, 32, c.area), (16, 16, e.2), (0, 16, sf 16 e.1.peak)]
     w6 := recW6 s0.time
     w7 := w7 }, cl.2.2)

end Sys2Proof.Machine
end

