-- ==== Sys2Proof/Machine/Fabric.lean ====
section
/-!
DEFINITION. The Limileri fabric: routing, output queues, credits and retry of a port, and the frames this
part originates (R442 to R471).
-/

namespace Sys2Proof.Machine

/-- Limileri port `p`. -/
def fbp (d : Dev) (p : Nat) : FabPort := tat d.fab p

/-- Replace Limileri port `p`. -/
def setFbp (d : Dev) (p : Nat) (x : FabPort) : Dev := { d with fab := tset d.fab p x }

/-- Address of FABpp_STAT (R491). -/
def fabStatA (p : Nat) : Nat := ra (pgFabPort p) 0x104

/-- Whether the link of port `p` is up. -/
def fabUp (d : Dev) (p : Nat) : Bool := rb d (fabStatA p) 31

/-- The fabric is in use (R489). -/
def fabOn (d : Dev) : Bool := rb d (ra pgFab 0x100) 31

/-- The part holds a node ID (R489). -/
def idValid (d : Dev) : Bool := rb d (ra pgFab 0x104) 31

/-- This node's ID. -/
def myId (d : Dev) : Nat := rf d (ra pgFab 0x104) 5 0

/-- The part's serial number, from fuses (R489). -/
def mySerial (d : Dev) : Nat := reg64 d (ra pgFab 0x108)

/-- Port 4 is the Pairing link (R443). -/
def isPairPort (d : Dev) (p : Nat) : Bool := decide (p = 4) && rb d (ra pgFab 0x100) 15

/-- Buffer pool of a class in frames (R460). -/
def poolSize (c : Nat) : Nat :=
  match c with
  | 1 => 64 | 2 => 16 | 3 => 32 | 4 => 8 | 5 => 128 | 6 => 16 | 7 => 64 | _ => 0

/-- Priority of a class at an output port (R460); class 0x7 has the Pairing link to itself. -/
def classPrio (c : Nat) : Nat :=
  match c with
  | 0 => 1 | 2 => 2 | 4 => 3 | 3 => 4 | 1 => 5 | 5 => 6 | 6 => 6 | _ => 7

/-- Whether a class may travel on port `p` (R443, R460). -/
def classOk (d : Dev) (p c : Nat) : Bool :=
  if isPairPort d p then decide (c = 0 ∨ c = 7) else decide (c < 7)

/-- Whether port `p` may send the frame now: class 0x0 always; another class needs a credit, room in the
replay buffer and a partner of this protocol version (R454, R458, R467). -/
def maySend (d : Dev) (p : Nat) (q : QFrame) : Bool :=
  let x := fbp d p
  let c := q.f.cls.toNat
  decide (c = 0) ||
    (decide (0 < tat x.cred c) && decide (x.replay.length < 256) && !rb d (fabStatA p) 18 && classOk d p c)

/-- The sendable frame of the lowest priority number, in order of arrival; records and management, which
share one priority, alternate (R460). -/
def pickFrame (d : Dev) (p : Nat) : Option QFrame :=
  let x := fbp d p
  let ok := x.outq.filter (maySend d p)
  let best := ok.foldl (fun b q => min b (classPrio q.f.cls.toNat)) 9
  let ts := ok.filter (fun q => decide (classPrio q.f.cls.toNat = best))
  let want := if x.turn then 6 else 5
  match ts.find? (fun q => decide (best = 6) && decide (q.f.cls.toNat = want)) with
  | some q => some q
  | none => ts.head?

/-- The buffer an arrived frame held on its arrival port is free once no copy of it waits (R454). -/
def returnCredit (d : Dev) (q : QFrame) : Dev :=
  match q.arr with
  | none => d
  | some a =>
    let waits := (List.range 5).any (fun p =>
      ((fbp d p).outq ++ (fbp d p).held).any (fun r => decide (r.uid = q.uid)))
    if waits || q.freed || q.f.cls = 0 then d
    else
      let x := fbp d a
      setFbp d a { x with back := tmod x.back q.f.cls.toNat (fun n => n + 1) }

/-- A frame with the trailer port `p` sends now: the acknowledgement and the credits of one pool to return
(R451, R454, R456). -/
def withTrailer (x : FabPort) (f : Frame) : Frame × FabPort :=
  let pool := ((List.range 8).find? (fun c => decide (tat x.back c ≠ 0))).getD 0
  let n := min (tat x.back pool) 255
  ({ f with ack := BitVec.ofNat 12 ((x.rxSeq + 4095) % 4096), ackValid := x.rxAny,
            crPool := BitVec.ofNat 3 (if n = 0 then 0 else pool), crCount := BitVec.ofNat 8 n },
   { x with back := tmod x.back pool (fun k => k - n), ackAt := none })

/-- Transmit one frame: a class other than 0x0 takes a credit, the next LSEQ and a place in the replay
buffer (R454, R456, R458). -/
def txFrame (d : Dev) (p : Nat) (q : QFrame) : Dev :=
  let x := fbp d p
  let c := q.f.cls.toNat
  let r := withTrailer x { q.f with lseq := if c = 0 then 0 else BitVec.ofNat 12 x.txSeq }
  let y := r.2
  let y := if c = 0 then y else
    { y with txSeq := (x.txSeq + 1) % 4096, replay := x.replay ++ [{ q with f := r.1, freed := true }], cred := tmod x.cred c (fun n => n - 1),
             oldestAt := if x.replay.isEmpty then d.cycle else x.oldestAt,
             turn := if c = 5 then true else if c = 6 then false else x.turn }
  returnCredit (emit (setFbp d p { y with outq := y.outq.erase q }) (.frame p r.1)) q

/-- Port `p` sends what it can. -/
def pumpPort (p : Nat) : Nat → Dev → Dev
  | 0, d => d
  | n + 1, d =>
    if fabUp d p then
      match pickFrame d p with
      | none => d
      | some q => pumpPort p n (txFrame d p q)
    else d

/-- Queue a frame at port `p`; the port sends what it can. Frames for a link that is down are held
(R446). -/
def sendOn (d : Dev) (p : Nat) (q : QFrame) : Dev :=
  let x := fbp d p
  if fabUp d p then pumpPort p (x.outq.length + 1) (setFbp d p { x with outq := x.outq ++ [q] })
  else if q.f.cls = 0 then d
  else setFbp d p { x with held := x.held ++ [q], heldAt := if x.held.isEmpty then d.cycle else x.heldAt }

/-- A class 0x0 frame of this node that travels one hop on port `p` (R455). -/
def linkFrame (d : Dev) (payload : List Dword) : Frame :=
  { cls := 0, dst := 0, src := BitVec.ofNat 6 (myId d), len := BitVec.ofNat 5 payload.length, bcast := false,
    rsv := 0, lseq := 0, hops := 63, payload := payload, ack := 0, ackValid := false, crPool := 0, crCount := 0 }

/-- Send a link-control frame on port `p`. -/
def sendLink (d : Dev) (p : Nat) (payload : List Dword) : Dev :=
  sendOn d p { f := linkFrame d payload, arr := none, uid := 0 }

/-- Entry of routing table `t` for node `k`, in force (R469). -/
def routeEntry (d : Dev) (t k : Nat) : Nat := ff d (ra pgFab (0x200 + 0x20 * t + 4 * (k / 8))) (4 * (k % 8) + 3) (4 * (k % 8))

/-- Broadcast mask of table `t`, in force: bit 5 delivers locally (R469). -/
def bcastMask (d : Dev) (t : Nat) : Nat := ff d (ra pgFab (0x2C0 + 4 * t)) 5 0

/-- Where a frame of table `t` goes: its output ports and whether it is delivered here (R469, R443). -/
def routeOf (d : Dev) (t : Nat) (f : Frame) : List Nat × Bool :=
  if f.bcast then
    ((bitIdx 5 (bcastMask d t)).filter (fun p => !isPairPort d p), (bcastMask d t).testBit 5)
  else
    let e := routeEntry d t f.dst.toNat
    if e < 5 then (if isPairPort d e then [] else [e], false) else ([], decide (e = 5))

/-- DROP_CNT of the arrival port counts a dropped frame (R469). -/
def countDrop (d : Dev) (arr : Option Nat) : Dev :=
  match arr with
  | none => d
  | some a => count d (ra (pgFabPort a) 0x11C)

/-- A SYNC sent on takes this node's residence time into CORR (R479, DESIGN CHOICE, log 31). -/
def addResidence (d : Dev) (p : Nat) (f : Frame) : Frame :=
  if f.cls = 4 ∧ dfld (dwAt f.payload 0) 63 60 = 0 then
    { f with payload := f.payload.set 3 (dwAt f.payload 3 + BitVec.setWidth 64 (Config.residence d.cycle p)) }
  else f

/-- Send a frame of arrival `arr` on the ports its table names; with none and no local delivery it is
dropped (R469). A forward takes one hop. -/
def forwardFrame (d : Dev) (arr : Option Nat) (f : Frame) : Dev :=
  let r := routeOf d (arr.getD 5) f
  let uid := d.node.uid + 1
  let d := { d with node := { d.node with uid := uid } }
  if r.1.isEmpty then
    let d := if r.2 then d else countDrop d arr
    returnCredit d { f := f, arr := arr, uid := uid }
  else if arr.isSome && f.hops = 0 then returnCredit (countDrop d arr) { f := f, arr := arr, uid := uid }
  else
    let g := if arr.isSome then { f with hops := f.hops - 1 } else f
    r.1.foldl (fun d p => sendOn d p { f := if arr.isSome then addResidence d p g else g, arr := arr, uid := uid }) d

/-- A frame this node originates on the fabric. Without an ID, or withdrawn from a claimed one, a node
originates class 0x0 only (R465, R466). -/
def originate (d : Dev) (cls : Nat) (dst : Option Nat) (payload : List Dword) : Dev :=
  if fabOn d && idValid d && !standby d then
    forwardFrame d none
      { cls := BitVec.ofNat 4 cls, dst := BitVec.ofNat 6 (dst.getD 0), src := BitVec.ofNat 6 (myId d),
        len := BitVec.ofNat 5 payload.length, bcast := dst.isNone, rsv := 0, lseq := 0, hops := 63,
        payload := payload, ack := 0, ackValid := false, crPool := 0, crCount := 0 }
  else d

/-- A frame of class 0x7 on the Pairing link (R443). -/
def sendPair (d : Dev) (payload : List Dword) : Dev :=
  if isPairPort d 4 then
    sendOn d 4 { f := { linkFrame d payload with cls := 7 }, arr := none, uid := 0 }
  else d

/-- Held frames are looked up again when the tables change (R470). -/
def reroute (d : Dev) : Dev :=
  (List.range 5).foldl (fun d p =>
    let x := fbp d p
    let keep := isPairPort d p
    let d := if keep then d else setFbp d p { x with held := [] }
    (if keep then [] else x.held).foldl (fun d q =>
      let r := routeOf d (q.arr.getD 5) q.f
      if r.1.isEmpty then returnCredit (countDrop d q.arr) q
      else (if q.f.bcast then r.1.filter (fun o => decide (o = p)) else r.1).foldl (fun d o => sendOn d o q) d) d) d

/-- Take the host-written or computed tables into force at once (R470). -/
def switchTables (d : Dev) : Dev :=
  let as := (List.range 48).map (fun i => ra pgFab (0x200 + 4 * i)) ++ (List.range 6).map (fun t => ra pgFab (0x2C0 + 4 * t))
  reroute (as.foldl (fun d a => setForce d a (reg d a)) d)

/-- The link goes down: its waiting frames are held for a new lookup, link-control frames discarded, and
bring-up restarts at once (R445, R446). -/
def fabDown (d : Dev) (p : Nat) : Dev :=
  if fabUp d p then
    let x := fbp d p
    let held := x.replay ++ x.outq.filter (fun q => q.f.cls ≠ 0) ++ x.held
    let d := setFbp d p { ({} : FabPort) with
      lanes := x.lanes, held := held, heldAt := d.cycle, trainAt := d.cycle, delay := x.delay }
    let d := poke (poke d (fabStatA p) 31 30 1) (fabStatA p) 29 24 0
    let d := pokeBit d (fabStatA p) 16 false
    evt (count d (ra (pgFabPort p) 0x120)) (pgFabPort p) 1
  else d

/-- Replay unacknowledged frames from the first that satisfies `from`; eight replays without progress take
the link down (R458, R459). -/
def replayFrom (d : Dev) (p : Nat) (hit : Frame → Bool) : Dev :=
  let x := fbp d p
  let fs := x.replay.dropWhile (fun q => !hit q.f)
  if fs.isEmpty then d
  else
    let d := setFbp d p { x with stuck := x.stuck + 1, oldestAt := d.cycle }
    let d := fs.foldl (fun d q =>
      let r := withTrailer (fbp d p) q.f
      emit (setFbp d p r.2) (.frame p r.1)) d
    let d := countBy d (ra (pgFabPort p) 0x114) 31 0 fs.length
    if x.stuck + 1 ≥ 8 then fabDown (evt d (pgFabPort p) 3) p else d

/-- The acknowledgement and credits in the trailer of a good frame (R451, R454, R456). -/
def takeTrailer (d : Dev) (p : Nat) (f : Frame) : Dev :=
  let x := fbp d p
  let x := if f.crPool = 0 then x else { x with cred := tmod x.cred f.crPool.toNat (fun n => n + f.crCount.toNat) }
  let x := if f.ackValid && x.replay.any (fun g => g.f.lseq = f.ack) then
      { x with replay := (x.replay.dropWhile (fun g => g.f.lseq ≠ f.ack)).drop 1, stuck := 0, oldestAt := d.cycle }
    else x
  pumpPort p (x.outq.length + 1) (setFbp d p x)

/-- One NAK naming the expected LSEQ; again only after that value changes (R457). -/
def sendNak (d : Dev) (p : Nat) : Dev :=
  let x := fbp d p
  if x.nakFor = some x.rxSeq then d
  else sendLink (setFbp d p { x with nakFor := some x.rxSeq, nakAt := d.cycle }) p [dpack [(60, 4, 1), (0, 12, x.rxSeq)]]

/-- KIND of a payload's word 1. -/
def kindOf (ws : List Dword) : Nat := dfld (dwAt ws 0) 63 60

/-- Whether a frame is malformed as it reached port `p` (R452, R541). -/
def malformed (d : Dev) (p : Nat) (f : Frame) (w : Wire) : Bool :=
  decide (f.len.toNat > 16) || !classOk d p f.cls.toNat || decide (f.rsv ≠ 0) || w.blockError ||
    (decide (f.cls = 7) && decide (9 < kindOf f.payload))

/-- A frame received on port `p`: discarded as malformed, bad or out of order, or accepted; the answer says
whether it is to be handled (R452, R456, R457). -/
def linkAccept (d : Dev) (p : Nat) (f : Frame) (w : Wire) : Dev × Bool :=
  if malformed d p f w then (sendNak (evt (count d (ra (pgFabPort p) 0x118)) (pgFabPort p) 7) p, false)
  else if !w.crcOk then (sendNak (count d (ra (pgFabPort p) 0x110)) p, false)
  else
    let d := takeTrailer d p f
    let x := fbp d p
    if f.cls = 0 then (d, true)
    else if f.lseq.toNat = x.rxSeq then
      (setFbp d p { x with rxSeq := (x.rxSeq + 1) % 4096, rxAny := true, nakFor := none,
                           ackAt := some (x.ackAt.getD d.cycle) }, true)
    else if (x.rxSeq + 4096 - f.lseq.toNat) % 4096 ≤ 2048 then
      (setFbp d p { x with ackAt := some (x.ackAt.getD d.cycle) }, false)
    else (sendNak d p, false)

end Sys2Proof.Machine
end

