-- ==== Sys2Proof/Machine/Flags.lean ====
section
/-!
DEFINITION. The one rule of adaptive loops against software bounds (R78 to R85): bound groups, their
hardware limits, one step of a loop, and the flags and counts of the pinned state.
-/

namespace Sys2Proof.Machine

/-- Effective bounds: the software bounds clipped to the hardware limits (R79). -/
def effBounds (lo hi hlo hhi : Int) : Int × Int := (satI lo hlo hhi, satI hi hlo hhi)

/-- What one update of a loop does: the new value, and whether it is pinned low or high. -/
structure LoopOut where
  value : Int
  lo : Bool
  hi : Bool
  deriving DecidableEq, Repr

/-- One update of a loop whose next computed value is `next`: beyond an effective bound it holds at that
bound and is pinned (R81). A value that a change of bounds left outside moves to the nearer bound by at most
`step`, and is not pinned on the way (R82). -/
def loopStep (cur next lo hi step : Int) : LoopOut :=
  if cur < lo then { value := min lo (cur + step), lo := false, hi := false }
  else if cur > hi then { value := max hi (cur - step), lo := false, hi := false }
  else { value := satI next lo hi, lo := decide (next < lo), hi := decide (next > hi) }

/-- The bound group at `g` shows a pinned state; entering it counts in PINCNT and raises event `b` of
page `pg` (R81, R84, R85). -/
def setPinned (d : Dev) (g pg b : Nat) (lo hi : Bool) : Dev :=
  let was := rf d (g + 8) 1 0
  let d := poke d (g + 8) 1 0 (hi.toNat * 2 + lo.toNat)
  if (lo || hi) && was = 0 then evt (count d (g + 12)) pg b else d

/-- The hardware limits of the bound group that holds the word at `a`, with the group's base (R79). The
value says whether the bounds are signed. -/
def loopGroup (a : Nat) : Option (Nat × Int × Int × Bool) :=
  let pg := a / 4096
  let o := a % 4096
  if 0x20 ≤ pg ∧ pg < 0x30 then
    if 0x180 ≤ o ∧ o < 0x190 then some (ra pg 0x180, 0, 15, false)
    else if 0x190 ≤ o ∧ o < 0x1A0 then some (ra pg 0x190, -24, 24, true) else none
  else if 0x231 ≤ pg ∧ pg < 0x236 then
    if 0x180 ≤ o ∧ o < 0x190 then some (ra pg 0x180, 0, 23, false)
    else if 0x190 ≤ o ∧ o < 0x1A0 then some (ra pg 0x190, -32, 32, true) else none
  else if 0x100 ≤ pg ∧ pg < 0x200 ∧ pg % 16 = 4 then
    if 0x900 ≤ o ∧ o < 0x960 then
      let j := (o - 0x900) / 16
      if j % 3 = 2 then some (ra pg (0x900 + 16 * j), 4, 65535, false)
      else some (ra pg (0x900 + 16 * j), 8, 32767, false)
    else if 0x980 ≤ o ∧ o < 0x9A0 then some (ra pg (0x980 + 16 * ((o - 0x980) / 16)), 0, 65535, false) else none
  else if pg = 0x210 ∧ 0x180 ≤ o ∧ o < 0x190 then some (ra pg 0x180, 0, 4, false)
  else if pg = 0x260 ∧ 0x120 ≤ o ∧ o < 0x130 then some (ra pg 0x120, 0, 4, false)
  else if pg = 0x261 ∧ 0x100 ≤ o ∧ o < 0x240 ∧ 0x10 ≤ (o - 0x100) % 0x40 ∧ (o - 0x100) % 0x40 < 0x20 then
    some (ra pg (0x110 + 0x40 * ((o - 0x100) / 0x40)), 0, 80, false)
  else none

/-- A bound word as an integer. -/
def boundInt (sgn : Bool) (w : Word) : Int := if sgn then toSigned 32 w.toNat else (w.toNat : Int)

/-- The effective bounds of the shadowed bound group at `g` under values in force `f`. -/
def groupBounds (f : Tbl Word) (g : Nat) : Int × Int :=
  match loopGroup g with
  | none => (0, 0)
  | some (_, hlo, hhi, sgn) => effBounds (boundInt sgn (vw f g)) (boundInt sgn (vw f (g + 4))) hlo hhi

/-- The effective bounds of a bound group that acts on write. -/
def groupBoundsNow (d : Dev) (g : Nat) : Int × Int :=
  match loopGroup g with
  | none => (0, 0)
  | some (_, hlo, hhi, sgn) => effBounds (boundInt sgn (reg d g)) (boundInt sgn (reg d (g + 4))) hlo hhi

end Sys2Proof.Machine
end

