-- ==== Sys2Proof/Machine/Front.lean ====
section
/-!
DEFINITION. The front rand: unpacking, dark subtraction and flat field, defective-pixel replacement and
linearisation of one camera line (R175 to R185), as functions of the tables and the values in force.
-/

namespace Sys2Proof.Machine

/-- Bits a pixel of format `fmt` takes in the line payload (R175). -/
def storeBits (fmt : Nat) : Nat := if fmt = 0 then 8 else if fmt = 1 then 10 else if fmt = 2 then 12 else 16

/-- Bits B of a pixel's raw code (R175). -/
def codeBits (fmt : Nat) : Nat := [8, 10, 12, 10, 12, 14, 16].getD fmt 16

/-- Whole pixels a payload of `n` bytes holds (R175). -/
def pixelsIn (fmt n : Nat) : Nat := 8 * n / storeBits fmt

/-- The first `n` stored pixels of a packed stream, each `sb` bits, least significant first (R175). -/
def chop (sb : Nat) : Nat → Nat → List Nat
  | 0, _ => []
  | n + 1, x => x % 2 ^ sb :: chop sb n (x >>> sb)

/-- The 16-bit working value of raw code `p` of B bits, by bit replication (R176). -/
def widen (b p : Nat) : Nat := if b = 16 then p else ((p <<< (16 - b)) ||| (p >>> (2 * b - 16))) % 65536

/-- One stored pixel as a sample; its SAT flag marks the largest code (R176, R177). -/
def samplePx (fmt x : Nat) : Px :=
  let b := codeBits fmt
  let p := x % 2 ^ b
  { v := widen b p, m := false, s := decide (p = 2 ^ b - 1) }

/-- A sensor line of LINE_LEN samples: the received pixels, then padding of FILL under the mask (R154). -/
def workLine (fmt len fill : Nat) (line : Nat × List Byte) : List Px :=
  let n := min line.1 len
  (chop (storeBits fmt) n (ofLeBytes line.2)).map (samplePx fmt) ++
    List.replicate (len - n) { v := fill, m := true, s := false }

/-- Pixels of a sensor line with a non-zero bit above [B − 1] (R177). -/
def rsvCount (fmt len : Nat) (line : Nat × List Byte) : Nat :=
  ((chop (storeBits fmt) (min line.1 len) (ofLeBytes line.2)).filter (fun x => decide (x ≥ 2 ^ codeBits fmt))).length

/-- Window offset of bank `bk` of wale `w` (R185, R666). -/
def bankBase (w bk : Nat) : Nat := 0x800000 * w + 0x200000 * bk

/-- The bank context `x` of wale `w` uses (R186). -/
def bankOf (f : Tbl Word) (w x : Nat) : Nat := vf f (cx (pgFront w) x 0x100) 27 27

/-- Table column of camera column `c` in context `x` (R185). -/
def tblCol (x c : Nat) : Nat := if x = 0 then c else 16384 + c

/-- Dark subtraction and flat field of one sample: the corrected sample, and whether it clipped low and
high (R178, R179). -/
def correctPx (dark gain : Nat) (offset : Int) (p : Px) : Px × Bool × Bool :=
  let y := shr (((p.v : Int) - dark) * gain + 8192) 14 + offset
  if y < 0 then ({ p with v := 0 }, true, false)
  else if y > 65535 then ({ p with v := 65535, s := true }, false, true)
  else ({ p with v := y.toNat }, false, false)

/-- The correction of sample (s, c) by its table entry and the enables of FRONT_x_CFG (R178, R185). -/
def correctAt (m : Mem) (f : Tbl Word) (w x s c : Nat) (p : Px) : Px × Bool × Bool :=
  let cfg := vw f (cx (pgFront w) x 0x100)
  let e := tblNat m (bankBase w (bankOf f w x) + 8 * (s * 32768 + tblCol x c)) 8
  let dark := if bitOf cfg 31 then natField e 15 0 else 0
  let gain := if bitOf cfg 30 then natField e 31 16 else 16384
  let off := if bitOf cfg 30 then toSigned 16 (natField e 47 32) else 0
  correctPx dark gain off p

/-- Entry `i` of the defective-pixel list of a context in bank `bk` (R180, R185). -/
def dplEntry (m : Mem) (w x bk i : Nat) : Nat :=
  tblNat m (bankBase w bk + (if x = 0 then 0x100000 else 0x104000) + 4 * i) 4

/-- The list entries in use, as (sensor line, method, column), those at or beyond LINE_LEN left out (R181). -/
def dplList (m : Mem) (f : Tbl Word) (w x len : Nat) : List (Nat × Nat × Nat) :=
  if vb f (cx (pgFront w) x 0x100) 29 then
    ((List.range (vf f (cx (pgFront w) x 0x104) 12 0)).map (fun i =>
      let e := dplEntry m w x (bankOf f w x) i
      (natField e 31 30, natField e 29 28, natField e 14 0))).filter (fun e => decide (e.2.2 < len))
  else []

/-- The mosaic descriptor of context `x` (R187). -/
def descOf (f : Tbl Word) (w x : Nat) : Nat := vf f (cx (pgColor w) x 0x100) 28 26

/-- Sensor lines NLINES of descriptor `dd` (R187, R207). -/
def descLines (f : Tbl Word) (dd : Nat) : Nat := vf f (ra pgColdesc (0x100 + 0x10 * dd)) 29 28 + 1

/-- Period P of descriptor `dd`; 0b11 is refused at commit (R187, R207). -/
def descPeriod (f : Tbl Word) (dd : Nat) : Nat := [1, 2, 4, 4].getD (vf f (ra pgColdesc (0x100 + 0x10 * dd)) 27 26) 1

/-- Channel code of sensor line `s` at phase `q` of descriptor `dd` (R187, R207). -/
def descSite (f : Tbl Word) (dd s q : Nat) : Nat :=
  let w := vw f (ra pgColdesc (0x100 + 0x10 * dd + (if s < 2 then 4 else 8)))
  fld w (12 * (s % 2) + 3 * q + 2) (12 * (s % 2) + 3 * q)

/-- Nearest good sample of a listed column along one direction, `k` of 16 strides tried (R182). -/
def dplFind (good : Nat → Bool) (c p len : Nat) (left : Bool) : Nat → Nat → Option Nat
  | 0, _ => none
  | fuel + 1, k =>
    if left then
      if c < k * p then none
      else if good (c - k * p) then some (c - k * p) else dplFind good c p len left fuel (k + 1)
    else
      if c + k * p ≥ len then none
      else if good (c + k * p) then some (c + k * p) else dplFind good c p len left fuel (k + 1)

/-- Replacement of one listed sample from the corrected line `ys` (R182, R183). -/
def dplReplace (ys : Array Px) (listed : Nat → Bool) (p len meth c : Nat) : Px :=
  let good := fun i => !listed i && !(ys.getD i default).m
  let l := dplFind good c p len true 16 1
  let r := dplFind good c p len false 16 1
  let take := fun (i : Nat) => { (ys.getD i default) with m := false }
  let one : Option Px :=
    if meth = 2 then (match r, l with | some i, _ => some (take i) | none, some i => some (take i) | none, none => none)
    else if meth = 1 then (match l, r with | some i, _ => some (take i) | none, some i => some (take i) | none, none => none)
    else match l, r with
      | some i, some j =>
        let a := ys.getD i default
        let b := ys.getD j default
        some { v := (a.v + b.v + 1) / 2, m := false, s := a.s || b.s }
      | some i, none => some (take i)
      | none, some j => some (take j)
      | none, none => none
  match one with
  | some px => if (ys.getD c default).m then { px with m := true } else px
  | none => { (ys.getD c default) with m := true }

/-- Linearisation of one sample by table `Ls` in bank `bk` (R184, R185). -/
def lutPx (m : Mem) (w x bk s : Nat) (p : Px) : Px :=
  let base := bankBase w bk + (if x = 0 then 0x110000 else 0x120000) + 0x4000 * s
  let i := p.v / 16
  let fr := p.v % 16
  let a := tblNat m (base + 2 * i) 2
  let b := tblNat m (base + 2 * (i + 1)) 2
  { p with v := wrapNat 16 ((a : Int) + shr (((b : Int) - a) * fr + 8) 4) }

/-- What the front rand makes of a camera line: raw working values and linearised samples by sensor line,
and how far each counter advances. -/
structure FrontOut where
  raw : List (List Px) := []
  z : List (List Px) := []
  clipLo : Nat := 0
  clipHi : Nat := 0
  padMask : Nat := 0
  rsv : Nat := 0
  deriving DecidableEq, Repr, Inhabited

/-- One sensor line through the front rand (R175 to R184). -/
def frontLine (m : Mem) (f : Tbl Word) (w x port s : Nat) (line : Nat × List Byte) : FrontOut :=
  let lc := vw f (ra (pgSkein port) 0x108)
  let fmt := fld lc 31 28
  let len := fld lc 16 0
  let raw := workLine fmt len (vf f (ra (pgSkein port) 0x10C) 15 0) line
  let cor := raw.zipIdx.map (fun pc => correctAt m f w x s pc.2 pc.1)
  let ys := (cor.map (fun t => t.1)).toArray
  let dpl := (dplList m f w x len).filter (fun e => decide (e.1 = s))
  let listed := fun c => dpl.any (fun e => decide (e.2.2 = c))
  let period := descPeriod f (descOf f w x)
  let rep := dpl.foldl (fun a e => a.set! e.2.2 (dplReplace ys listed period len e.2.1 e.2.2)) ys
  let padded := (dpl.filter (fun e => (rep.getD e.2.2 default).m && !(ys.getD e.2.2 default).m)).length
  let bk := bankOf f w x
  let zs := if vb f (cx (pgFront w) x 0x100) 28 then rep.toList.map (lutPx m w x bk s) else rep.toList
  { raw := [raw], z := [zs], clipLo := (cor.filter (fun t => t.2.1)).length,
    clipHi := (cor.filter (fun t => t.2.2)).length, padMask := padded, rsv := rsvCount fmt len line }

/-- A whole camera line through the front rand, sensor line by sensor line. -/
def frontAll (m : Mem) (f : Tbl Word) (w x port : Nat) (lines : List (Nat × List Byte)) : FrontOut :=
  lines.zipIdx.foldl (fun o ls =>
    let r := frontLine m f w x port ls.2 ls.1
    { raw := o.raw ++ r.raw, z := o.z ++ r.z, clipLo := o.clipLo + r.clipLo, clipHi := o.clipHi + r.clipHi,
      padMask := o.padMask + r.padMask, rsv := o.rsv + r.rsv }) {}

/-- Which camera columns padding masks, in any sensor line, the listed pixels left without a source
among them (R154, R183). -/
def padColumns (m : Mem) (f : Tbl Word) (w x port : Nat) (lines : List (Nat × List Byte)) : List Bool :=
  let len := vf f (ra (pgSkein port) 0x108) 16 0
  let zs := (frontAll m f w x port lines).z.map List.toArray
  (List.range len).map (fun c => zs.any (fun z => (z.getD c default).m))

end Sys2Proof.Machine
end

