-- ==== Sys2Proof/Machine/Remap.lean ====
section
/-!
DEFINITION. The across-web remap of R212 to R215: which camera columns an output column reaches and the
value it takes, and the spans of system columns that a set of camera columns reaches.
-/

namespace Sys2Proof.Machine

/-- Source camera column and 0.16 fraction of output column `i` (R212, R213). -/
def remapEntry (m : Mem) (f : Tbl Word) (w x len i : Nat) : Nat × Nat :=
  let cfg := vw f (cx (pgGeom w) x 0x100)
  if bitOf cfg 20 then
    let e := tblNat m (bankBase w (bankOf f w x) + (if x = 0 then 0x140000 else 0x160000) + 4 * i) 4
    (natField e 30 16, natField e 15 0)
  else if bitOf cfg 19 then (len - 1 - i, 0)
  else (i, 0)

/-- The coefficients of a response at all 64 phases, computed once for a line. -/
def romTable (id : Nat) : Array (List Int) := ((List.range 64).map (romRow id)).toArray

/-- Camera column of tap `j` for source column `s`; edge columns are replicated (R214). -/
def tapCol (s j len : Nat) : Nat := (satI ((s : Int) - 3 + j) 0 ((len : Int) - 1)).toNat

/-- The taps of one output column that count: camera column and non-zero coefficient (R214, R215). -/
def tapsOf (rt : Array (List Int)) (len : Nat) (e : Nat × Nat) : List (Nat × Int) :=
  ((rt.getD (e.2 / 1024) []).zipIdx.filter (fun cj => decide (cj.1 ≠ 0))).map (fun cj => (tapCol e.1 cj.2 len, cj.1))

/-- The output value of one column in one plane (R214). -/
def remapPx (taps : List (Nat × Int)) (u : Array Px) : Px :=
  let s := taps.foldl (fun a t => a + t.2 * ((u.getD t.1 default).v : Int)) 0
  { v := (satI (shr (s + 8192) 14) 0 65535).toNat,
    m := taps.any (fun t => (u.getD t.1 default).m), s := taps.any (fun t => (u.getD t.1 default).s) }

/-- Rising columns gathered into maximal runs of (left, width). -/
def colRuns : List Nat → List (Nat × Nat)
  | [] => []
  | c :: cs =>
    match colRuns cs with
    | [] => [(c, 1)]
    | (l, n) :: r => if l = c + 1 then (c, n + 1) :: r else (c, 1) :: (l, n) :: r

/-- The owned system columns of context `x` whose remap reaches a flagged camera column, as maximal runs
of consecutive columns (R154, R215). -/
def reachSpans (m : Mem) (f : Tbl Word) (w x port : Nat) (flag : List Bool) : List (Nat × Nat) :=
  let len := vf f (ra (pgSkein port) 0x108) 16 0
  let rt := romTable (vf f (cx (pgGeom w) x 0x100) 31 28)
  let base := vf f (cx (pgGeom w) x 0x104) 19 0
  let own := ownedSpan f w x
  let fa := flag.toArray
  colRuns ((List.range (own.2 + 1 - own.1)).filterMap (fun k =>
    let sc := own.1 + k
    if sc < base then none
    else if (tapsOf rt len (remapEntry m f w x len (sc - base))).any (fun t => fa.getD t.1 false) then some sc
    else none))

end Sys2Proof.Machine
end

