-- ==== Sys2Proof/Machine/Interp.lean ====
section
/-!
DEFINITION. The interpolation that sensor-line alignment and along-web resampling share: bracket, phase, tap
substitution and the eight-tap sum (R190, R191, R217).
-/

namespace Sys2Proof.Machine

/-- The latest position at or below `x`, as an index; lines without a position take no part (R190, R195,
R218). -/
def bracketFrom (xs : List (Option Int)) (x : Int) (i : Nat) (best : Option Nat) : Option Nat :=
  match xs with
  | [] => best
  | p :: r =>
    match p with
    | none => bracketFrom r x (i + 1) best
    | some v => bracketFrom r x (i + 1) (if v ≤ x then some i else best)

/-- The bracketing line k of R190. -/
def bracket (xs : List (Option Int)) (x : Int) : Option Nat := bracketFrom xs x 0 none

/-- The phase of R190; 0 when no line follows line k (R219). -/
def phaseAt (xs : List (Option Int)) (x : Int) (k : Nat) : Nat :=
  match xs.getD k none, xs.getD (k + 1) none with
  | some a, some b => if b > a then (satI (((x - a) * 64) / (b - a)) 0 63).toNat else 0
  | _, _ => 0

/-- The available tap nearest to tap `j`, the lower of two equally near (R191). -/
def nearestTap (taps : List (Option Px)) (j : Nat) : Option Px :=
  (List.range 8).findSome? (fun d =>
    if d ≤ j ∧ (taps.getD (j - d) none).isSome then taps.getD (j - d) none else taps.getD (j + d) none)

/-- One interpolated sample, and whether a substituted tap carried a non-zero coefficient (R190, R191). A
masked sample's value is used nowhere. -/
def interp8 (coef : List Int) (taps : List (Option Px)) : Px × Bool :=
  if (taps.getD 3 none).isNone && (taps.getD 4 none).isNone then ({ v := 0, m := true, s := false }, false)
  else
    let used := (coef.zipIdx.filter (fun c => decide (c.1 ≠ 0))).map (fun c =>
      (c.1, (taps.getD c.2 none).isNone, (nearestTap taps c.2).getD default))
    let sum := used.foldl (fun a u => a + u.1 * (u.2.2.v : Int)) 0
    ({ v := (satI (shr (sum + 8192) 14) 0 65535).toNat, m := false, s := used.any (fun u => u.2.2.s) },
      used.any (fun u => u.2.1))

end Sys2Proof.Machine
end

