-- ==== Sys2Proof/Machine/Monitor.lean ====
section
/-! DEFINITION. The monitors: how a sample enters the bins (R606, R620). -/

namespace Sys2Proof.Machine

/-- Address of a register of monitor `mm` (R620). -/
def monA (mm o : Nat) : Nat := ra pgMon (0x100 + 0x20 * mm + o)

/-- A 32-bit register as a signed sample. -/
def monVal (d : Dev) (a : Nat) : Int := toSigned 32 (reg d a).toNat

/-- The bin of a sample (R606). -/
def monBin (d : Dev) (mm : Nat) (v : Int) : Nat := (satI (shr (v - monVal d (monA mm 4)) (rf d (monA mm 0) 15 12)) 0 63).toNat

/-- Monitor `mm` takes a sample (R606). -/
def monTake (d : Dev) (mm : Nat) (v : Int) : Dev :=
  let first := decide ((reg d (monA mm 0x10)).toNat = 0)
  let lo := if first ∨ v < monVal d (monA mm 8) then v else monVal d (monA mm 8)
  let hi := if first ∨ v > monVal d (monA mm 12) then v else monVal d (monA mm 12)
  let d := setReg (setReg d (monA mm 8) (BitVec.ofInt 32 lo)) (monA mm 12) (BitVec.ofInt 32 hi)
  let d := count d (monA mm 0x10)
  let k := monBin d mm v
  let d := { d with health := { d.health with bins := tmod d.health.bins (64 * mm + k) (fun n => satInc 32 n 1) } }
  if k = 63 then evt d pgMon mm else d

/-- A sample of source `src` reaches every monitor that takes it (R606). -/
def monSample (d : Dev) (src : Nat) (v : Int) : Dev :=
  (List.range 16).foldl (fun d mm =>
    if rb d (monA mm 0) 31 && decide (rf d (monA mm 0) 23 16 = src) then
      if rb d (monA mm 0) 30 then count d (monA mm 0x14) else monTake d mm v
    else d) d

/-- A source value that names samples (R606). -/
def monSrcOk (src : Nat) : Bool :=
  decide (src ≤ 0x11) || (decide (0x20 ≤ src) && decide (src ≤ 0x2A)) || (decide (0x30 ≤ src) && decide (src ≤ 0x35))

/-- The host clears a monitor by a write of its MIN (R620). -/
def monClear (d : Dev) (mm : Nat) : Dev :=
  let d := [8, 12, 0x10, 0x14].foldl (fun d o => setReg d (monA mm o) 0) d
  { d with health := { d.health with bins := d.health.bins.filter (fun e => decide (e.1 / 64 ≠ mm)) } }

/-- A write of MON_BIN_SEL copies a monitor's bins (R620). -/
def monCopy (d : Dev) (mm : Nat) : Dev :=
  (List.range 64).foldl (fun d b => setReg d (ra pgMon (0x400 + 4 * b)) (BitVec.ofNat 32 (tat d.health.bins (64 * mm + b))))
    (poke d (ra pgMon 0x300) 3 0 mm)

end Sys2Proof.Machine
end

