-- ==== Sys2Proof/Machine/Skein.lean ====
section
/-!
DEFINITION. Camera ports: line slots and how each resolves, the resend window, the passing of lines to the
wale in camera line order, link state and eye scans (R132 to R170).
-/

namespace Sys2Proof.Machine

/-- Camera port `n`. -/
def skp (d : Dev) (n : Nat) : SkeinPort := tat d.skein n

/-- Replace camera port `n`. -/
def setSkp (d : Dev) (n : Nat) (p : SkeinPort) : Dev := { d with skein := tset d.skein n p }

/-- Count in counter `i` of SKEINnn, SHORT_CNT being 0 (R168). -/
def skCount (d : Dev) (n i : Nat) : Dev := count d (ra (pgSkein n) (0x124 + 4 * i))

/-- Event `b` of SKEINnn (R169). -/
def skEvt (d : Dev) (n b : Nat) : Dev := evt d (pgSkein n) b

/-- Counter and event of a slot closed as a gap of `cause` (R168, R169). -/
def gapCounts (d : Dev) (n cause : Nat) : Dev :=
  match cause with
  | 0x04 => skEvt (skCount d n 2) n 4
  | 0x05 => skEvt (skCount d n 4) n 6
  | 0x06 => skEvt (skCount d n 5) n 7
  | 0x08 => skEvt (skCount d n 6) n 8
  | _ => d

/-- The bytes of sensor line `s` of a slot: its packets in index order (R146). -/
def slineBytes (parts : List (Nat × Nat × List Byte)) (s : Nat) : List Byte :=
  let ps := parts.filter (fun p => decide (p.1 = s))
  (isort (fun a b => decide (a.2.1 ≤ b.2.1)) ps).flatMap (fun p => p.2.2)

/-- The sensor lines of a slot with their pixel counts (R146, R153). -/
def slotLines (f : Tbl Word) (n : Nat) (s : Slot) : List (Nat × List Byte) :=
  let lc := vw f (ra (pgSkein n) 0x108)
  (List.range (fld lc 25 24 + 1)).map (fun k =>
    let bs := slineBytes s.parts k
    (pixelsIn (fld lc 31 28) bs.length, bs))

/-- A slot whose line has ended with every packet good is checked against LINE_LEN and complete
(R152 to R156); a line closed at its deadline counts as timed out only (R145). -/
def finishSlot (d : Dev) (n : Nat) (s : Slot) : Dev × Slot :=
  let f := forceOf d s.stamp.ver
  let len := vf f (ra (pgSkein n) 0x108) 16 0
  let ls := slotLines f n s
  let short := s.timedOut || ls.any (fun l => decide (l.1 < len))
  let long := ls.any (fun l => decide (l.1 > len))
  let d := if s.timedOut then skEvt (skCount d n 3) n 5 else if short then skEvt (skCount d n 0) n 2 else d
  let d := if long then skEvt (skCount d n 1) n 3 else d
  let d := if s.resent then skEvt (skCount d n 10) n 15 else d
  (d, { s with fin := true, stamp := { s.stamp with short := short, long := long } })

/-- Complete every ended slot that has no bad packet left. -/
def finishAll (d : Dev) (n : Nat) : List Slot → Dev × List Slot
  | [] => (d, [])
  | s :: ss =>
    let r := if s.ended && s.bad.isEmpty && !s.fin && s.cause.isNone then finishSlot d n s else (d, s)
    let q := finishAll r.1 n ss
    (q.1, r.2 :: q.2)

/-- The gap pieces of a camera line over all the columns its camera owns (R157). -/
def ownedPiece (f : Tbl Word) (n cause : Nat) : List GapPiece :=
  match ctxOfPort f n with
  | none => []
  | some (w, x) =>
    let o := ownedSpan f w x
    if o.1 ≤ o.2 then [{ cause := cause, left := o.1, width := o.2 + 1 - o.1, cls := gapCls w x }] else []

/-- The gap pieces of a short or timed-out line: the owned columns reached by padding (R154, R157). -/
def padPieces (m : Mem) (f : Tbl Word) (n cause : Nat) (ls : List (Nat × List Byte)) : List GapPiece :=
  match ctxOfPort f n with
  | none => []
  | some (w, x) =>
    (reachSpans m f w x n (padColumns m f w x n ls)).map (fun lw =>
      { cause := cause, left := lw.1, width := lw.2, cls := gapCls w x })

/-- Block health after one slot (R159). -/
def healthAdd (h : BlkHealth) (s : Slot) (elastic : Bool) : BlkHealth :=
  if s.reverse then h
  else if elastic then { h with other := min (h.other + 1) 255 }
  else match s.cause with
    | some 0x04 => { h with missing := min (h.missing + 1) 255 }
    | some _ => { h with other := min (h.other + 1) 255 }
    | none =>
      let h := if s.timedOut then { h with missing := min (h.missing + 1) 255 }
        else if s.stamp.short then { h with short := min (h.short + 1) 255 } else h
      if s.stamp.long then { h with long := min (h.long + 1) 255 } else h

/-- The elastic store of a port is full: gap lines take no place in it (R162). -/
def elasticFull (p : SkeinPort) : Bool := decide ((p.ready.filter (fun c => !c.gap)).length ≥ 2)

/-- Complete lines behind an older one lie in the resend store, which has room for four (R152). -/
def keepLines : Nat → List Slot → List Slot
  | _, [] => []
  | k, s :: ss => if s.fin && decide (k < 4) then { s with kept := true } :: keepLines (k + 1) ss else s :: keepLines k ss

/-- The oldest slot has resolved: its line passes to the elastic store, or as a gap line, and its gaps
merge into the port's records (R150, R158, R159, R162, R163). -/
def passSlot (d : Dev) (m : Mem) (n : Nat) (s : Slot) : Dev :=
  let f := forceOf d s.stamp.ver
  let isGap := s.cause.isSome || s.reverse
  let elastic := !isGap && elasticFull (skp d n)
  let d := if elastic then gapCounts d n 0x08 else d
  let ls := slotLines f n s
  let pieces : List GapPiece :=
    if s.reverse then []
    else if elastic then ownedPiece f n 0x08
    else match s.cause with
      | some c => ownedPiece f n c
      | none =>
        (if s.stamp.short then padPieces m f n (if s.timedOut then 0x02 else 0x01) ls else []) ++
          (if s.stamp.long then ownedPiece f n 0x03 else [])
  let no := s.stamp.camLine
  let st := { s.stamp with gap := isGap || elastic }
  let r := mergeGaps d (skp d n).gaps ((stationOf f n).getD 0) no s.stamp pieces
  let d := r.1
  let p := skp d n
  let h := healthAdd p.health s elastic
  let line : CamLine := { stamp := st, gap := isGap || elastic, lines := if isGap || elastic then [] else ls,
                          readyAt := d.cycle }
  let p := { p with gaps := r.2, health := h, ready := p.ready ++ [line] }
  let p := if no % 256 = 255 then { p with latched := { h with block := no / 256 }, health := {} } else p
  setSkp d n p

/-- Pass on the resolved slots at the head of the port, in camera line order (R150). A line that was held in the resend
store stays there until the elastic store has a place for it: none is lost (R152). -/
def passHead (m : Mem) (n : Nat) : Nat → Dev → Dev
  | 0, d => d
  | fuel + 1, d =>
    let p := skp d n
    match p.slots with
    | [] => d
    | s :: ss =>
      if s.cause.isSome || (s.fin && !(s.kept && !s.reverse && elasticFull p)) then
        passHead m n fuel (passSlot (setSkp d n { p with slots := ss }) m n s)
      else setSkp d n { p with slots := keepLines 0 p.slots }

/-- Bring a port's slots as far as they resolve. -/
def settleSlots (d : Dev) (m : Mem) (n : Nat) : Dev :=
  let p := skp d n
  let r := finishAll d n p.slots
  let d := setSkp r.1 n { (skp r.1 n) with slots := r.2 }
  passHead m n (r.2.length + 1) d

/-- Close a slot as a gap of `cause`; packets of its line that still come are discarded (R145). -/
def closeSlot (d : Dev) (n line cause : Nat) : Dev :=
  let p := skp d n
  let open' := p.slots.any (fun s => decide (s.stamp.camLine = line) && s.cause.isNone && !s.fin)
  if open' then
    let slots := p.slots.map (fun s => if s.stamp.camLine = line then { s with cause := some cause, bad := [] } else s)
    let wasCur := decide (p.cur = some line)
    gapCounts (setSkp d n { p with slots := slots, cur := if wasCur then none else p.cur,
                                   discard := p.discard || wasCur }) n cause
  else d

/-- Close each slot of a list of camera lines. -/
def closeSlots (d : Dev) (n cause : Nat) : List Nat → Dev
  | [] => d
  | l :: ls => closeSlots (closeSlot d n l cause) n cause ls

/-- Camera lines of the slots still open. -/
def openLines (p : SkeinPort) : List Nat :=
  (p.slots.filter (fun s => s.cause.isNone && !s.fin)).map (fun s => s.stamp.camLine)

/-- A trigger opens a line slot on an enabled port (R142); while the link is down it closes at once (R137). -/
def openSlot (d : Dev) (m : Mem) (n : Nat) (st : Stamp) : Dev :=
  let f := d.force
  let sw := vw f (ra (pgSkein n) 0x110)
  let t := st.cycle
  let p := skp d n
  let s : Slot := { stamp := st, winLo := t + fld sw 15 0, winHi := t + fld sw 31 16,
                    deadline := t + (vw f (ra (pgSkein n) 0x114)).toNat, trigAt := t }
  let s := if p.linkUp then s else { s with cause := some 0x07 }
  settleSlots (setSkp d n { p with slots := p.slots ++ [s] }) m n

/-- Whether the transmit lane of port `n` runs (R138); that of a part that is not active is idle (R514, R519). -/
def txOn (d : Dev) (n : Nat) : Bool := fb d (ra (pgSkein n) 0x100) 24 && !pairMuted d

/-- The link goes down: LINK_STAT, and every open slot closes as a LINK_DOWN gap (R136, R137). -/
def linkDown (d : Dev) (m : Mem) (n : Nat) : Dev :=
  let p := skp d n
  if p.linkUp then
    let d := setSkp d n { p with linkUp := false, lanes := [], hdr := none, held := [], cur := none, scans := [] }
    let d := poke (pokeBit d (ra (pgSkein n) 0x118) 31 false) (ra (pgSkein n) 0x118) 21 16 0
    let d := skCount (skEvt d n 1) n 11
    settleSlots (closeSlots d n 0x07 (openLines (skp d n))) m n
  else d

/-- Physical lanes of the logical lanes in use (R133). -/
def usedLanes (f : Tbl Word) (n : Nat) : List Nat :=
  (List.range (vf f (ra (pgSkein n) 0x100) 30 28)).map (fun k => vf f (ra (pgSkein n) 0x104) (3 * k + 2) (3 * k))

/-- Queue lane scans; the lane in front is the one being scanned (R165). -/
def scanBusy (d : Dev) (pg k : Nat) (b : Bool) : Dev := poke d (ra pg (0x210 + 0x20 * k)) 31 30 (if b then 3 else 0)

/-- The link comes up when every configured lane of an enabled port is locked and deskewed
(R134, R136); a scan of its lanes then starts, but not under throttle (R165, R589). -/
def checkLink (d : Dev) (n : Nat) : Dev :=
  let p := skp d n
  let us := usedLanes d.force n
  let ls := us.map (fun k => tat p.lanes k)
  if portOn d.force n && !p.linkUp && ls.all (fun l => l.locked) then
    let sk := ls.map (fun l => l.skew)
    let hi : Nat := sk.foldl max 0
    let lo : Nat := sk.foldl min hi
    if hi - lo > 32 then pokeBit d (ra (pgSkein n) 0x118) 30 true
    else
      let d := poke d (ra (pgSkein n) 0x118) 31 30 2
      let scans := if throttleStep d = 0 then us else []
      let d := setSkp d n { p with linkUp := true, scans := scans }
      let d := scans.foldl (fun d k => scanBusy d (pgSkein n) k true) d
      skEvt d n 0
  else d

/-- A commit disables the port: its link goes down without event or count, its open slots close as
LINE_MISSING, its pending line as CRC, and its gap records close (R136, R158, R695). -/
def portDisable (d : Dev) (m : Mem) (n : Nat) : Dev :=
  let p := skp d n
  let pend := (p.slots.filter (fun s => !s.bad.isEmpty && s.cause.isNone)).map (fun s => s.stamp.camLine)
  let d := setSkp d n { p with linkUp := false, hdr := none, held := [], scans := [] }
  let d := pokeBit d (ra (pgSkein n) 0x118) 31 false
  let d := closeSlots d n 0x05 pend
  let d := settleSlots (closeSlots d n 0x04 (openLines (skp d n))) m n
  let p := skp d n
  setSkp (flushGaps d p.gaps) n { (skp (flushGaps d p.gaps) n) with gaps := [] }

/-- Whether a request may be made for a line that `newer` lines have followed (R151). -/
def mayResend (f : Tbl Word) (n newer reqs : Nat) : Bool :=
  let c := vw f (ra (pgSkein n) 0x100)
  bitOf c 27 && decide (newer < 4) && decide (reqs < fld c 26 25)

/-- Whether the port requests resends at all (R151, R152). -/
def resendOn (f : Tbl Word) (n : Nat) : Bool :=
  let c := vw f (ra (pgSkein n) 0x100)
  bitOf c 27 && decide (fld c 26 25 ≠ 0)

/-- Send a resend request when the transmit lane runs (R138, R151, R168). -/
def sendResend (d : Dev) (n : Nat) (what : Option (Nat × Nat × Nat)) : Dev :=
  if txOn d n then skCount (emit d (.resend n what)) n 9 else d

/-- A bad packet of a line: a request while one may be made, else the line closes as a CRC gap (R151, R152). -/
def badPacket (d : Dev) (n line sl ix : Nat) : Dev :=
  let p := skp d n
  match p.slots.find? (fun s => decide (s.stamp.camLine = line)) with
  | none => d
  | some s =>
    if mayResend (forceOf d s.stamp.ver) n s.newer s.reqs then
      let upd := fun (t : Slot) =>
        if t.stamp.camLine = line then { t with bad := t.bad.erase (sl, ix) ++ [(sl, ix)], reqs := t.reqs + 1 } else t
      sendResend (setSkp d n { p with slots := p.slots.map upd }) n (some (line, sl, ix))
    else closeSlot d n line 0x05

/-- Store a good packet in its slot; one that answers a request repairs the line (R147, R152). -/
def goodPacket (d : Dev) (n line : Nat) (pk : Packet) (reply : Bool) : Dev :=
  let p := skp d n
  let upd := fun (t : Slot) =>
    if t.stamp.camLine = line then
      { t with parts := t.parts ++ [(pk.sline.val, pk.index, pk.data)],
               bad := t.bad.erase (pk.sline.val, pk.index), resent := t.resent || reply }
    else t
  setSkp d n { p with slots := p.slots.map upd }

/-- A packet whose format differs closes its slot as FORMAT; a good one is stored; a bad one is requested
again (R147, R151). -/
def slotPacket (d : Dev) (n : Nat) (s : Slot) (pk : Packet) (reply : Bool) : Dev :=
  let line := s.stamp.camLine
  if !pk.crcOk then badPacket d n line pk.sline.val pk.index
  else if pk.format.toNat ≠ vf (forceOf d s.stamp.ver) (ra (pgSkein n) 0x108) 31 28 then closeSlot d n line 0x06
  else goodPacket d n line pk reply

/-- A packet arrives for the line in progress, or as the answer to a request (R143, R145, R151, R152). With
no line in progress a bad packet is taken as a possible image header. -/
def packetAt (d : Dev) (m : Mem) (n t : Nat) (pk : Packet) : Dev :=
  let p := skp d n
  match pk.reply with
  | some line =>
    match p.slots.find? (fun s => decide (s.stamp.camLine = line) && s.bad.contains (pk.sline.val, pk.index)) with
    | some s => settleSlots (slotPacket d n s pk true) m n
    | none => skCount d n 8
  | none =>
    match p.cur with
    | some line =>
      match p.slots.find? (fun s => decide (s.stamp.camLine = line)) with
      | some s => settleSlots (slotPacket d n s pk false) m n
      | none => skCount d n 8
    | none =>
      if !pk.crcOk && !p.discard && p.hdr.isNone && resendOn d.force n then
        sendResend (setSkp d n { p with hdr := some { at' := t, reqs := 1 } }) n none
      else skCount d n 8

/-- The line in progress ends (R153). -/
def endLine (d : Dev) (m : Mem) (n : Nat) : Dev :=
  let p := skp d n
  match p.cur with
  | none => setSkp d n { p with discard := false }
  | some line =>
    let upd := fun (t : Slot) => if t.stamp.camLine = line then { t with ended := true } else t
    settleSlots (setSkp d n { p with cur := none, slots := p.slots.map upd }) m n

/-- A line start makes every started line one newer line old; a pending line closes as CRC when a fourth
newer line starts (R151, R152). -/
def ageLines (d : Dev) (m : Mem) (n : Nat) : Dev :=
  let p := skp d n
  let slots := p.slots.map (fun s => if s.started then { s with newer := s.newer + 1 } else s)
  let d := setSkp d n { p with slots := slots }
  let gone := (slots.filter (fun s => decide (s.newer ≥ 4) && !s.bad.isEmpty && s.cause.isNone)).map (fun s => s.stamp.camLine)
  settleSlots (closeSlots d n 0x05 gone) m n

/-- The oldest slot still without a line start whose window contains instant `t` (R143). -/
def windowSlot (p : SkeinPort) (t : Nat) : Option Slot :=
  p.slots.find? (fun s => !s.started && s.cause.isNone && decide (s.winLo ≤ t ∧ t ≤ s.winHi))

/-- A valid image header starts the line of the oldest slot whose window contains its arrival, or is
unsolicited (R143, R147). -/
def startAt (d : Dev) (m : Mem) (n t : Nat) (fmt : Nat) : Dev :=
  let d := ageLines d m n
  let p := skp d n
  match windowSlot p t with
  | none => skEvt (skCount (setSkp d n { p with cur := none, discard := true }) n 7) n 9
  | some s =>
    let line := s.stamp.camLine
    let upd := fun (u : Slot) => if u.stamp.camLine = line then { u with started := true, startAt := t } else u
    let d := monSample d n ((t : Int) - s.trigAt)
    let d := setSkp d n { p with cur := some line, discard := false, slots := p.slots.map upd, lastStart := some t }
    if fmt ≠ vf (forceOf d s.stamp.ver) (ra (pgSkein n) 0x108) 31 28 then settleSlots (closeSlot d n line 0x06) m n
    else d

/-- A plausible eye scan replaces a lane's figures and raises SCAN_DONE; an implausible one counts in
SCAN_FAIL (R166, R448). `ui` is the unit interval in 0.01 ps. -/
def scanResult (d : Dev) (pg k b ui : Nat) (hlo hhi : Nat) (r : EyeResult) : Dev :=
  let a := ra pg (0x200 + 0x20 * k)
  if 8 ≤ r.width ∧ r.width ≤ 60 ∧ hlo ≤ r.height ∧ r.height ≤ hhi then
    let d := setReg d (a + 4) (wpack [(16, 16, (r.width * ui + 320) / 640), (0, 16, r.width)])
    let d := setReg d (a + 8) (wpack [(24, 8, sf 8 r.residual), (0, 16, r.height)])
    evt d pg b
  else countBy d (a + 16) 15 0 1

end Sys2Proof.Machine
end

