-- ==== Sys2Proof/Machine/Colour.lean ====
section
/-!
DEFINITION. The colour stages: sensor-line alignment, reconstruction, output planes and block statistics
(R187 to R204).
-/

namespace Sys2Proof.Machine

/-- The front, colour and geometry rands of context `x` of wale `w`. -/
def wst (d : Dev) (w x : Nat) : WaleSt := tat d.wale (2 * w + x)

/-- Replace the rands of context `x` of wale `w`. -/
def setWst (d : Dev) (w x : Nat) (s : WaleSt) : Dev := { d with wale := tset d.wale (2 * w + x) s }

/-- Offset of sensor line `s` from the reference sensor line (R189). -/
def slOff (f : Tbl Word) (w x s : Nat) : Nat := (vw f (cx (pgColor w) x (0x110 + 4 * s))).toNat

/-- The reference sensor line: the lowest-numbered one with offset 0 (R189). -/
def refSline (f : Tbl Word) (w x n : Nat) : Nat :=
  ((List.range n).find? (fun s => decide (slOff f w x s = 0))).getD 0

/-- Two contexts share the wale (R161). -/
def paired (f : Tbl Word) (w : Nat) : Bool := vb f (ra (pgIn w) 0x100) 31 && !vb f (ra (pgIn w) 0x100) 30

/-- Lines the alignment store holds (R194); with one sensor line it holds none and the limit of 64 stands. -/
def alignDepth (f : Tbl Word) (w x len : Nat) : Nat :=
  let n := descLines f (descOf f w x)
  let dep := if len * (n - 1) = 0 then 64 else min 64 (1048576 / (len * (n - 1)))
  if paired f w then dep / 2 else dep

/-- Whether two stamps lie on one side of every position step (R195). -/
def sameSide (a b : Stamp) : Bool := decide (a.encCh = b.encCh) && decide (a.step = b.step) && decide (a.tstep = b.tstep)

/-- One sensor line of an output line: its aligned samples, how many counted as substituted, and whether a
needed tap was older than the store (R190, R191, R194). -/
structure Aligned where
  px : List Px := []
  subst : Nat := 0
  range : Bool := false
  deriving DecidableEq, Repr, Inhabited

/-- Sensor line `s` interpolated for output line `i` of the store (R190 to R195). -/
def alignSline (f : Tbl Word) (w x len s : Nat) (ls : Array ALine) (dropped : Bool) (i : Nat) : Aligned :=
  let me := (ls.getD i default).stamp
  let xs := ls.toList.map (fun l => if sameSide l.stamp me then some l.stamp.web else none)
  let target := me.web - slOff f w x s
  match bracket xs target with
  | none => { px := List.replicate len { v := 0, m := true, s := false }, range := dropped }
  | some k =>
    let coef := romRow (vf f (cx (pgColor w) x 0x100) 25 22) (phaseAt xs target k)
    let depth := alignDepth f w x len
    let held := fun (j : Nat) => decide (3 ≤ k + j) && decide (k + j - 3 < ls.size) &&
      decide (ls.size ≤ k + j - 3 + depth)
    let old := (List.range 8).any (fun j =>
      if k + j < 3 then dropped else decide (k + j - 3 + depth < ls.size))
    let lines : List (Option (Array Px)) := (List.range 8).map (fun j =>
      let l := ls.getD (k + j - 3) default
      if held j && !l.gap && sameSide l.stamp me then some (l.z.getD s []).toArray else none)
    let out := (List.range len).map (fun c =>
      interp8 coef (lines.map (fun l =>
        match l with
        | none => none
        | some a => let p := a.getD c default; if p.m then none else some p)))
    { px := out.map (fun o => o.1), subst := (out.filter (fun o => o.2)).length, range := old }

/-- Sites of channel `ch` at column `c`: the unmasked samples of the sensor lines mapped there (R196). -/
def sitesAt (f : Tbl Word) (dd n p : Nat) (al : Array (Array Px)) (c ch : Nat) : List Px :=
  (List.range n).filterMap (fun s =>
    if descSite f dd s (c % p) = ch then
      let q := (al.getD s #[]).getD c default
      if q.m then none else some q
    else none)

/-- Value and SAT of one channel from its sites, rounded (R196, R198). -/
def siteMean (ps : List Px) : Nat × Bool :=
  ((ps.foldl (fun a p => a + p.v) 0 + ps.length / 2) / ps.length, ps.any (fun p => p.s))

/-- The channel value V[c][ch] and whether a sample it was formed from carries SAT (R196, R198). -/
def channelAt (f : Tbl Word) (dd n p len : Nat) (al : Array (Array Px)) (c ch : Nat) : Nat × Bool :=
  match sitesAt f dd n p al c ch with
  | q :: qs => siteMean (q :: qs)
  | [] =>
    let find := fun (left : Bool) => ((List.range p).map (· + 1)).findSome? (fun k =>
      if left then (if k ≤ c then
        (match sitesAt f dd n p al (c - k) ch with | [] => none | q :: qs => some (k, siteMean (q :: qs))) else none)
      else if c + k < len then
        (match sitesAt f dd n p al (c + k) ch with | [] => none | q :: qs => some (k, siteMean (q :: qs)))
      else none)
    match find true, find false with
    | some (dl, a), some (dr, b) => ((a.1 * dr + b.1 * dl + (dl + dr) / 2) / (dl + dr), a.2 || b.2)
    | some (_, a), none => a
    | none, some (_, b) => b
    | none, none => (0, false)

/-- Weights over R, G, B, NIR, Clear and the offset of the plane whose registers start at `o` (R197, R206). -/
def weightsAt (f : Tbl Word) (w x o : Nat) : List Int × Int :=
  let a := vw f (cx (pgColor w) x o)
  let b := vw f (cx (pgColor w) x (o + 4))
  let c := vw f (cx (pgColor w) x (o + 8))
  ([toSigned 16 (fld a 31 16), toSigned 16 (fld a 15 0), toSigned 16 (fld b 31 16), toSigned 16 (fld b 15 0),
    toSigned 16 (fld c 15 0)], toSigned 16 (fld c 31 16))

/-- The planes formed: Y first, then each enabled feature plane, with its register offset (R197). -/
def planeRegs (f : Tbl Word) (w x : Nat) : List Nat :=
  0x120 :: (bitIdx 3 (vf f (cx (pgColor w) x 0x100) 21 19)).map (fun k => 0x130 + 0x10 * k)

/-- The feature planes enabled (R206). -/
def featsOn (f : Tbl Word) (w x : Nat) : List Nat := bitIdx 3 (vf f (cx (pgColor w) x 0x100) 21 19)

/-- One column of one plane (R197). -/
def planeValue (wts : List Int × Int) (vs : List (Nat × Bool)) : Nat :=
  let s := (wts.1.zip vs).foldl (fun a p => a + p.1 * (p.2.1 : Int)) 0
  (satI (shr (s + 8192) 14 + wts.2) 0 65535).toNat

/-- An output line of the colour rand: its planes (mask and SAT on each), the columns masked by alignment
alone, and what the counters advance by (R192, R196 to R198). -/
structure ColourOut where
  planes : List (List Px) := []
  alignMask : List Bool := []
  subst : Nat := 0
  range : Bool := false
  deriving DecidableEq, Repr, Inhabited

/-- Output line `i` of a store's lines (R190 to R198). -/
def colourLine (f : Tbl Word) (w x len : Nat) (ls : Array ALine) (dropped : Bool) (i : Nat) : ColourOut :=
  let dd := descOf f w x
  let n := descLines f dd
  let p := descPeriod f dd
  let me := ls.getD i default
  let ref := refSline f w x n
  let als := (List.range n).map (fun s =>
    if s = ref then ({ px := me.z.getD s [] } : Aligned) else alignSline f w x len s ls dropped i)
  let al := (als.map (fun a => a.px.toArray)).toArray
  let zs := (me.z.map List.toArray).toArray
  let own := fun c => zs.any (fun z => (z.getD c default).m)
  let any := fun c => al.any (fun z => (z.getD c default).m)
  let wts := (planeRegs f w x).map (weightsAt f w x)
  let live := (List.range 5).map (fun ch => wts.any (fun t => decide (t.1.getD ch 0 ≠ 0)))
  let cols := (List.range len).map (fun c =>
    let vs := (List.range 5).map (fun k => channelAt f dd n p len al c (k + 1))
    let sat := (vs.zip live).any (fun t => t.1.2 && t.2)
    wts.map (fun t => ({ v := planeValue t vs, m := own c || any c, s := sat } : Px)))
  { planes := (List.range wts.length).map (fun k => cols.map (fun c => c.getD k default)),
    alignMask := (List.range len).map (fun c => any c && !own c),
    subst := als.foldl (fun a b => a + b.subst) 0, range := als.any (fun a => a.range) }

/-- Statistics setting of a context (R206). -/
def statCfg (f : Tbl Word) (w x : Nat) : Word := vw f (cx (pgColor w) x 0x170)

/-- The samples a statistics tap takes from an output line (R199). -/
def tapSamples (cfg : Nat) (l : ALine) (f : Tbl Word) (w x : Nat) (o : ColourOut) : List Px :=
  let tap := natField cfg 30 28
  let sl := natField cfg 27 26
  if tap = 0 then l.raw.getD sl []
  else if tap = 1 then l.z.getD sl []
  else if tap = 2 then o.planes.getD 0 []
  else
    match (featsOn f w x).idxOf? (tap - 3) with
    | none => []
    | some k => o.planes.getD (k + 1) []

/-- Statistics after the samples of one line (R200). -/
def statLine (a : StatAcc) (ps : List Px) : StatAcc :=
  let base := natField a.cfg 15 0
  let sh := natField a.cfg 24 22
  let cols := if a.cols.length < ps.length then a.cols ++ List.replicate (ps.length - a.cols.length) (0, 0) else a.cols
  let cols := cols.zipIdx.map (fun ci =>
    let p := ps.getD ci.2 { v := 0, m := true, s := false }
    if p.m then ci.1 else (ci.1.1 + p.v, ci.1.2 + 1))
  let good := ps.filter (fun p => !p.m)
  good.foldl (fun a p =>
    { a with hist := tmod a.hist (satI (shr ((p.v : Int) - base) sh) 0 1023).toNat (fun n => n + 1),
             lo := min a.lo p.v, hi := max a.hi p.v, sat := a.sat + p.s.toNat, pix := a.pix + 1 })
    { a with cols := cols, lines := a.lines + 1 }

/-- A new block's statistics, begun at a line (R199, R203). -/
def statBegin (cfg len : Nat) (st : Stamp) : StatAcc :=
  { block := st.camLine / 256, cfg := cfg, len := len, epoch := st.epoch, partly := decide (st.camLine % 256 ≠ 0) }

/-- An output line enters the block statistics of its context (R199 to R203). `ps` is none for a gap line. -/
def statAdd (d : Dev) (w x len : Nat) (cfg : Word) (st : Stamp) (ps : StatAcc → Option (List Px)) : Dev :=
  let s := wst d w x
  let s := if s.statOn && decide (s.stat.block ≠ st.camLine / 256) then
      { s with statOn := false, statDone := s.statDone ++ [s.stat] } else s
  let s := if s.statOn then s else if bitOf cfg 31 then
      { s with statOn := true, stat := statBegin cfg.toNat len st } else s
  if s.statOn then
    let a := { s.stat with span := s.stat.span || decide (s.stat.epoch ≠ st.epoch) }
    let a := match ps a with
      | none => { a with gaps := a.gaps + 1 }
      | some l => statLine a l
    let s := if st.camLine % 256 = 255 then { s with statOn := false, stat := {}, statDone := s.statDone ++ [a] }
      else { s with stat := a }
    setWst d w x s
  else setWst d w x s

/-- A block cut short by disabling its port is delivered with PARTIAL (R203). -/
def statCut (d : Dev) (w x : Nat) : Dev :=
  let s := wst d w x
  if s.statOn then
    setWst d w x { s with statOn := false, stat := {}, statDone := s.statDone ++ [{ s.stat with partly := true }] }
  else d

/-- Means and no-mean flags of the columns (R200). -/
def statMeans (a : StatAcc) : List (Nat × Bool) :=
  (List.range a.len).map (fun c =>
    let e := a.cols.getD c (0, 0)
    if e.2 = 0 then (0, true) else ((2 * e.1 + e.2) / (2 * e.2), false))

/-- The statistics packet (R201). -/
def statPacket (a : StatAcc) (x seq : Nat) : List Byte :=
  let ms := statMeans a
  let bits := (List.range 4096).map (fun k =>
    BitVec.ofNat 8 ((List.range 8).foldl (fun v j => v + ((ms.getD (8 * k + j) (0, false)).2).toNat * 2 ^ j) 0))
  leBytes 4 a.block ++ leBytes 4 (a.block / 2 ^ 32) ++ leBytes 4 seq ++
    leBytes 4 (wpack [(24, 8, a.epoch), (23, 1, a.partly.toNat), (22, 1, a.span.toNat), (21, 1, x),
      (18, 3, natField a.cfg 30 28), (16, 2, natField a.cfg 27 26)]).toNat ++
    leBytes 4 (wpack [(16, 16, a.len), (0, 16, a.lines)]).toNat ++
    leBytes 4 (wpack [(16, 16, (ms.filter (fun p => p.2)).length), (0, 16, a.gaps)]).toNat ++
    leBytes 4 (wpack [(16, 16, if a.pix = 0 then 0 else a.hi), (0, 16, if a.pix = 0 then 0xFFFF else a.lo)]).toNat ++
    leBytes 4 a.sat ++ leBytes 4 a.pix ++
    leBytes 4 (wpack [(16, 3, natField a.cfg 24 22), (0, 16, natField a.cfg 15 0)]).toNat ++
    List.replicate 24 0 ++
    (List.range 1024).flatMap (fun b => leBytes 4 (tat a.hist b)) ++ bits ++
    (List.range 32768).flatMap (fun c => leBytes 2 (ms.getD c (0, false)).1)

/-- Window offset of the statistics buffer for block `b` of context `x` of wale `w` (R202). -/
def statBase (w x b : Nat) : Nat := 0x800000 * w + 0x400000 + 0x40000 * x + 0x20000 * (b % 2)

/-- The oldest completed block's packet is written, BLOCK_LO last, and STAT_READY is raised (R202). -/
def statWrite (d : Dev) (m : Mem) (w x : Nat) : Dev × Mem × Option (StatAcc × List Byte) :=
  let s := wst d w x
  match s.statDone with
  | [] => (d, m, none)
  | a :: r =>
    let bs := statPacket a x s.seq
    let t := mwrite zeroByte m.tbl (statBase w x a.block + 4) (bs.drop 4)
    let t := mwrite zeroByte t (statBase w x a.block) (bs.take 4)
    let d := setWst d w x { s with statDone := r, seq := (s.seq + 1) % 2 ^ 32 }
    let d := setReg d (cx (pgColor w) x 0x174) (BitVec.ofNat 32 a.block)
    let d := setReg d (cx (pgColor w) x 0x178) (BitVec.ofNat 32 (a.block / 2 ^ 32))
    (evt d (pgColor w) x, { m with tbl := t }, some (a, bs))

end Sys2Proof.Machine
end

