-- ==== Sys2Proof/Machine/Geometry.lean ====
section
/-!
DEFINITION. The geometry stages: the across-web remap of an output line into the stagger store, history
rows, contributions to system lines, and what a station releases (R208 to R232, R371 to R374).
-/

namespace Sys2Proof.Machine

/-- STORE_BITS of a context as a bit count (R220, R237). -/
def storeB (f : Tbl Word) (w x : Nat) : Nat := [8, 10, 12, 16].getD (vf f (cx (pgGeom w) x 0x100) 23 22) 12

/-- The value a stored code of B bits is restored to (R220). -/
def restore (b q : Nat) : Nat :=
  if b = 8 then q * 256 + q else if b = 10 then q * 64 + q / 16 else if b = 12 then q * 16 + q / 256 else q

/-- Lines the on-chip store of a camera holds (R220). -/
def onchipDepth (f : Tbl Word) (w x : Nat) : Nat :=
  let len := vf f (cx (pgGeom w) x 0x108) 16 0
  let p := 1 + (featsOn f w x).length
  let n := len * (p * storeB f w x + 2)
  let dep := if n = 0 then 264 else min 264 (33554432 / n)
  if paired f w then dep / 2 else dep

/-- One output line across the web: remapped, and cut to the store's precision (R214, R220). -/
def remapLine (m : Mem) (f : Tbl Word) (w x len : Nat) (st : Stamp) (planes : List (List Px)) : SLine :=
  let cfg := vw f (cx (pgGeom w) x 0x100)
  let rt := romTable (fld cfg 31 28)
  let n := vf f (cx (pgGeom w) x 0x108) 16 0
  let taps := (List.range n).map (fun i => tapsOf rt len (remapEntry m f w x len i))
  let outs := planes.map (fun p => taps.map (fun t => remapPx t p.toArray))
  let y := outs.getD 0 []
  let b := storeB f w x
  { stamp := st, base := vf f (cx (pgGeom w) x 0x104) 19 0, bits := b, feats := featsOn f w x,
    mask := y.map (fun p => p.m), sat := y.map (fun p => p.s),
    planes := outs.map (fun o => o.map (fun p => p.v / 2 ^ (16 - b))) }

/-- A gap line as the store and history hold it: every sample 0 and masked (R373). -/
def gapSLine (f : Tbl Word) (w x : Nat) (st : Stamp) : SLine :=
  let n := vf f (cx (pgGeom w) x 0x108) 16 0
  { stamp := st, gap := true, base := vf f (cx (pgGeom w) x 0x104) 19 0, bits := storeB f w x, feats := featsOn f w x,
    mask := List.replicate n true, sat := List.replicate n false,
    planes := List.replicate (1 + (featsOn f w x).length) (List.replicate n 0) }

/-- History context number (R371). -/
def histNo (w x : Nat) : Nat := 2 * w + x

/-- Address of a history context register (R406). -/
def histA (nn o : Nat) : Nat := ra pgHist (0x400 + 0x40 * nn + o)

/-- Complete the chunk being gathered (R372); it bypasses its compressor when eight wait there (R383). -/
def endChunk (d : Dev) (w x : Nat) : Dev :=
  let s := wst d w x
  match s.rows with
  | [] => d
  | r :: _ =>
    let waiting := (wst d w 0).chunks.length + (wst d w 1).chunks.length
    let last := s.rows.getLastD r
    let no := last.stamp.camLine / 4
    let pad := { r with gap := true, mask := r.mask.map (fun _ => true), sat := r.sat.map (fun _ => false),
                        planes := r.planes.map (List.map (fun _ => 0)) }
    let rows := (List.range 4).map (fun i =>
      match s.rows.find? (fun q => decide (q.stamp.camLine = 4 * no + i)) with
      | some q => q
      | none => { pad with stamp := { r.stamp with camLine := 4 * no + i } })
    setWst d w x { s with rows := [], chunks := s.chunks ++ [{ no := no, rows := rows, bypass := decide (waiting ≥ 8),
                                                               ver := last.stamp.ver }] }

/-- Enter a stored line in history (R371 to R374). -/
def histRow (d : Dev) (w x : Nat) (l : SLine) : Dev :=
  let f := forceOf d l.stamp.ver
  let s := wst d w x
  let due := s.histAt.any (fun v => decide (v ≤ l.stamp.ver))
  let s := if due then
      { s with histAt := s.histAt.filter (fun v => decide (v > l.stamp.ver)), hHeld := s.hNext, hBusy := [],
               chunks := [], rows := [] } else s
  let d := setWst d w x s
  if vb f (histA (histNo w x) 0) 31 then
    let s := wst d w x
    let d := setWst d w x { s with rows := s.rows ++ [l] }
    if l.stamp.camLine % 4 = 3 then endChunk d w x else d
  else d

/-- Write a line to the stagger store, which keeps the newest D_on lines, and to history (R220, R233,
R371). -/
def storeLine (d : Dev) (w x : Nat) (l : SLine) : Dev :=
  let f := forceOf d l.stamp.ver
  let s := wst d w x
  let due := s.flushAt.any (fun v => decide (v ≤ l.stamp.ver))
  let s := if due then { s with flushAt := s.flushAt.filter (fun v => decide (v > l.stamp.ver)), stag := [],
                                stagDropped := 0, window := [], winDropped := 0 } else s
  let stag := s.stag ++ [l]
  let ovr := stag.length - onchipDepth f w x
  histRow (setWst d w x { s with stag := stag.drop ovr, stagDropped := s.stagDropped + ovr }) w x l

/-- The position steps counted on an encoder channel, and the moves kept; channel 8 stands for the
reference encoder of another part (R218, R476). -/
def stepsOf (d : Dev) (c : Nat) : Nat × List (Nat × Int) :=
  if c = 8 then (d.node.refCount, d.node.refSteps)
  else ((tat d.enc c).mark.count, (tat d.enc c).steps)

/-- The moves made on a stamp's encoder since it was stamped; none when one of them is not kept (R218). -/
def movesSince (d : Dev) (st : Stamp) : Option Int :=
  let k := stepsOf d st.encCh
  (List.range (k.1 - st.step)).foldl (fun a i =>
    match a, k.2.find? (fun e => decide (e.1 = st.step + 1 + i)) with
    | some t, some e => some (t + e.2)
    | _, _ => none) (some 0)

/-- A stamp's web position with the moves since added (R218). -/
def adjusted (d : Dev) (st : Stamp) : Option Int := (movesSince d st).map (fun m => st.web + m)

/-- Whether the camera of context `x` of wale `w` is enabled under values `f`, with its station (R209). -/
def camStation (f : Tbl Word) (w x : Nat) : Option Nat :=
  match portOfCtx f w x with
  | none => none
  | some n => if portOn f n then stationOf f n else none

/-- The enabled cameras of a station as contexts (R229). -/
def camsOf (f : Tbl Word) (ss : Nat) : List (Nat × Nat) :=
  ((List.range 16).flatMap (fun w => [(w, 0), (w, 1)])).filter (fun c => decide (camStation f c.1 c.2 = some ss))

/-- Values in force for a system line: those at its reference trigger (R234). -/
def lineForce (d : Dev) (st : Option Stamp) : Tbl Word :=
  match st with
  | none => d.force
  | some s => forceOf d s.ver

/-- A contribution with every sample masked. -/
def maskedContrib (f : Tbl Word) (w x n : Nat) (cause : Option Nat) : Contrib :=
  let len := vf f (cx (pgGeom w) x 0x108) 16 0
  let blank : List Px := List.replicate len { v := 0, m := true, s := false }
  { line := n, base := vf f (cx (pgGeom w) x 0x104) 19 0, feats := featsOn f w x,
    planes := List.replicate (1 + (featsOn f w x).length) blank,
    stag := if cause.isSome then [] else List.replicate len true, cause := cause }

/-- What forming a contribution gives: the contribution, the columns counted as substituted, whether a tap
was older than the store, and the lag (R217, R221, R224). -/
structure Formed where
  con : Contrib
  subst : Nat := 0
  range : Bool := false
  lag : Nat := 0
  deriving DecidableEq, Repr

/-- The contribution of a camera to system line `n` at target `tx`, from its held lines, once it may be
formed (R217 to R219, R232). `final`: the port is disabled and no more lines come. -/
def formAt (f : Tbl Word) (w x n : Nat) (ls : Array SLine) (xs : List (Option Int)) (dropped newest : Nat)
    (tx : Int) (final : Bool) : Option Formed :=
  let above := xs.any (fun p => match p with | none => false | some v => decide (v > tx))
  if !above && !final then none
  else
    match bracket xs tx with
    | none => some { con := maskedContrib f w x n none, range := above && decide (dropped ≠ 0) }
    | some k =>
      if k + 4 ≥ ls.size && !final then none
      else
        let coef := romRow (vf f (cx (pgGeom w) x 0x100) 27 24) (phaseAt xs tx k)
        let t3 := ls.getD k default
        let taps : List (Option SLine) := (List.range 8).map (fun j =>
          if k + j < 3 then none
          else
            match ls[k + j - 3]?, xs.getD (k + j - 3) none with
            | some l, some _ => if l.gap then none else some l
            | _, _ => none)
        let cols : List (List (Px × Bool)) := (List.range t3.planes.length).map (fun pl =>
          let rows := taps.map (fun t => t.map (fun l =>
            ((l.planes.getD pl []).toArray, l.mask.toArray, l.sat.toArray, l.bits)))
          (List.range t3.mask.length).map (fun c =>
            interp8 coef (rows.map (fun r =>
              match r with
              | none => none
              | some (q, mk, sa, b) =>
                if mk.getD c true then none else some { v := restore b (q.getD c 0), m := false, s := sa.getD c false }))))
        let y := cols.getD 0 []
        let tm := t3.mask.toArray
        some {
          con := { line := n, base := t3.base, feats := t3.feats, planes := cols.map (fun p => p.map (fun q => q.1)),
                   stag := y.zipIdx.map (fun q => q.1.1.m && !tm.getD q.2 true) }
          subst := (y.filter (fun q => q.2)).length
          range := decide (k < 3 ∧ 3 - k ≤ dropped)
          lag := newest - (ls.getD (k + 4) t3).stamp.camLine }

/-- The lines a camera holds for its contributions: the on-chip store, or the read-back window of the ring
route (R221, R222). -/
def heldLines (f : Tbl Word) (w x : Nat) (s : WaleSt) : List SLine × Nat :=
  if vb f (cx (pgGeom w) x 0x100) 21 then (s.window, s.winDropped) else (s.stag, s.stagDropped)

/-- System lines with a place in the reference list, from `n` on. -/
def linesFrom (d : Dev) (n : Nat) : List (Nat × Option Stamp) :=
  d.refLines.filter (fun e => decide (n ≤ e.1))

/-- The system line that context `x` of wale `w` contributes to next (R216, R219). -/
def nextContrib (d : Dev) (w x : Nat) : Option (Nat × Stamp) :=
  (linesFrom d (wst d w x).nextLine).findSome? (fun e =>
    match e.2 with
    | none => none
    | some st => if (camStation (forceOf d st.ver) w x).isSome then some (e.1, st) else none)

/-- Whether the camera's port has been disabled, so that no further line comes (R219). -/
def noMoreLines (d : Dev) (f : Tbl Word) (w x : Nat) : Bool :=
  match portOfCtx f w x with
  | none => true
  | some n => !portOn d.force n && (wst d w x).lines.all (fun l => l.out) && (skp d n).ready.isEmpty && (skp d n).slots.isEmpty

/-- Count and enter a formed contribution; one to a line already released is discarded (R217, R221, R224,
R230, R232). -/
def enterContrib (d : Dev) (w x ss n : Nat) (r : Formed) : Dev :=
  let pg := pgGeom w
  let s := wst d w x
  let d := setWst d w x { s with nextLine := n + 1 }
  let d := poke d (cx pg x 0x11C) 19 0 (min r.lag 0xFFFFF)
  if n < (tat d.stn ss).next then d
  else
    let d := countBy d (cx pg x 0x120) 31 0 r.subst
    let d := if r.range then evt (count d (cx pg x 0x124)) pg x else d
    let d := if r.con.stag.any (fun b => b) then evt (count d (cx pg x 0x128)) pg (2 + x) else d
    let s := wst d w x
    let d := setWst d w x { s with contribs := s.contribs ++ [r.con] }
    let t := tat d.stn ss
    if t.first.any (fun e => decide (e.1 = n)) then d
    else { d with stn := tset d.stn ss { t with first := t.first ++ [(n, d.cycle)] } }

/-- A contribution of which nothing is left because a microcode change took its lines is lost to the pause (R643). -/
def pauseLost (d : Dev) (f : Tbl Word) (w x n : Nat) (ls : List SLine) (xs : List (Option Int)) (tx : Int) (r : Formed) :
    Formed :=
  let hit := fun (i : Nat) => ((ls[i]?).map (fun l => l.gap && d.paused.contains (l.stamp.sysLine / 256))).getD false
  match bracket xs tx with
  | none => r
  | some k =>
    if (hit k || hit (k + 1)) && (r.con.planes.getD 0 []).all (fun p => p.m) then
      { r with con := maskedContrib f w x n (some 0x1A) }
    else r

/-- Form the next contribution of a camera, if it may be formed now (R216 to R224, R231, R232, R643). -/
def formContrib (d : Dev) (w x : Nat) : Dev :=
  match nextContrib d w x with
  | none => d
  | some (n, st) =>
    let f := forceOf d st.ver
    let s := wst d w x
    let ss := (camStation f w x).getD 0
    if s.faults.contains 1 then
      let d := setWst d w x { s with faults := s.faults.erase 1 }
      enterContrib d w x ss n { con := maskedContrib f w x n (some 0x17) }
    else
      match adjusted d st with
      | none => enterContrib d w x ss n { con := maskedContrib f w x n none }
      | some tx =>
        let h := heldLines f w x s
        let xs := h.1.map (fun l => if l.bits = 0 then none else adjusted d l.stamp)
        let newest := (s.stag.getLastD default).stamp.camLine
        match formAt f w x n h.1.toArray xs h.2 newest tx (noMoreLines d f w x) with
        | none => d
        | some r => enterContrib d w x ss n (pauseLost d f w x n h.1 xs tx r)

end Sys2Proof.Machine
end

