-- ==== Sys2Proof/Machine/Segment.lean ====
section
/-!
DEFINITION. Segmentation of one context: background, thresholds, learning, morphology, runs and their budget
(R240 to R272).
-/

namespace Sys2Proof.Machine

/-- The segmentation rands of context `x` of wale `w`. -/
def sgs (d : Dev) (w x : Nat) : SegSt := tat d.seg (2 * w + x)

/-- Replace the segmentation rands of a context. -/
def setSgs (d : Dev) (w x : Nat) (s : SegSt) : Dev := { d with seg := tset d.seg (2 * w + x) s }

/-- A context register of the SEG page. -/
def segA (w x o : Nat) : Nat := cx (pgSeg w) x o

/-- Base of the bound group of class `k` (R257). -/
def athA (w x k : Nat) : Nat := ra (pgSeg w) (0x900 + 0x10 * (3 * x + k))

/-- Base of the background bound group (R247). -/
def bgA (w x : Nat) : Nat := ra (pgSeg w) (0x980 + 0x10 * x)

/-- Current threshold of class `k` (R253). -/
def thr (d : Dev) (w x k : Nat) : Nat := rf d (segA w x (0x148 + 0x10 * k)) 15 0

/-- The effective bounds of bg: LOOP_LO << 8 to (LOOP_HI << 8) + 255 (R247). -/
def bgBounds (f : Tbl Word) (w x : Nat) : Int × Int :=
  let b := groupBounds f (bgA w x)
  (b.1 * 256, b.2 * 256 + 255)

/-- Learning starts at the first line of a commit that asks for it (R249). -/
def learnStart (f : Tbl Word) (w x : Nat) (s : SegSt) (ver : Nat) : SegSt :=
  { s with
    learnAt := s.learnAt.filter (fun v => decide (v > ver)), ob := vf f (cx (pgGeom w) x 0x104) 19 0
    cols := List.replicate (vf f (cx (pgGeom w) x 0x108) 16 0) {}, learn := vf f (segA w x 0x104) 23 12
    learnDone := false, nv := 0, sdev := 0, stex := 0, cnt := 0, post := false }

/-- The next level of a background: one step of `bg + (((v << 8) − bg + r) >> SHIFT)` (R245). -/
def bgStep (bg : Nat) (v : Int) (shift : Nat) : Int :=
  let r : Int := if shift = 0 then 0 else (2 : Int) ^ (shift - 1)
  (bg : Int) + shr (v * 256 - bg + r) shift

/-- One column of a learning line: the first unmasked sample seeds it, later ones update it (R249). -/
def learnCol (shift : Nat) (b : Int × Int) (c : BgCol) (p : Px) : BgCol :=
  if p.m then c
  else if c.seeded then { c with bg := (satI (bgStep c.bg p.v shift) b.1 b.2).toNat, pin := 0 }
  else { c with bg := p.v * 256, seeded := true, pin := 0 }

/-- Output column `c` of the background as working-span column `i` reads it: the nearest one (R243). -/
def bgAt (cols : Array BgCol) (ob col : Nat) : BgCol :=
  cols.getD (satI ((col : Int) - ob) 0 ((cols.size : Int) - 1)).toNat default

/-- Comparison level B (R243). -/
def bgLevel (c : BgCol) : Nat := (c.bg + 128) / 256

/-- Texture activity of each column of a span (R252). -/
def texture (t : List Px) (wsel : Nat) : List Nat :=
  let a := t.toArray
  let d := fun (i : Int) =>
    if i < 0 ∨ i + 1 ≥ a.size then 0
    else
      let p := a.getD i.toNat default
      let q := a.getD (i.toNat + 1) default
      if p.m || q.m then 0 else ((q.v : Int) - p.v).natAbs
  let h : Nat := 2 ^ wsel
  (List.range a.size).map (fun (c : Nat) =>
    ((List.range (2 * h)).foldl (fun (s : Nat) (j : Nat) => s + d ((c : Int) - (h : Int) + (j : Int))) 0) / (2 * h))

/-- Raw class flags of one sample (R253). -/
def rawFlags (cfg : Word) (dev : Int) (act t0 t1 t2 : Nat) : Nat :=
  (bitOf cfg 30 && decide (dev ≤ -(t0 : Int))).toNat + 2 * (bitOf cfg 29 && decide (dev ≥ (t1 : Int))).toNat +
    4 * (bitOf cfg 28 && decide (act ≥ t2)).toNat

/-- The freeze settings of a line (R245). -/
structure BgCfg where
  shift : Nat
  hold : Nat
  max : Nat
  lo : Int
  hi : Int
  deriving DecidableEq, Repr

/-- What one column's background update did: forced (R246), or seeded late (R250). -/
structure BgOut where
  col : BgCol
  forced : Bool := false
  late : Bool := false
  deriving DecidableEq, Repr

/-- One column of a non-void line after thresholds (R245 to R250). `near`: a raw flag lies within FREEZE_DIL;
`hit`: this column itself carries one; `nv` counts non-void lines, this one included. -/
def bgCol (g : BgCfg) (nv : Nat) (near hit : Bool) (c : BgCol) (p : Px) : BgOut :=
  if !c.seeded then
    if p.m then { col := c } else { col := { c with bg := p.v * 256, seeded := true }, late := true }
  else
    let held := match c.flagAt with
      | none => false
      | some k => decide (nv ≤ k + g.hold)
    let c := if hit then { c with flagAt := some nv } else c
    if (c.bg : Int) < g.lo ∨ (c.bg : Int) > g.hi then
      let tgt : Int := if (c.bg : Int) < g.lo then g.lo / 256 else g.hi / 256
      let nb := bgStep c.bg tgt g.shift
      let nb := if nb = c.bg then (if (c.bg : Int) < g.lo then nb + 1 else nb - 1) else nb
      { col := { c with bg := nb.toNat, pin := 0, frozen := false } }
    else if p.m then { col := { c with frozen := false } }
    else
      let frozen := near || held || p.s
      if frozen && (decide (g.max = 0) || decide (c.run < g.max)) then
        { col := { c with run := c.run + 1, frozen := true } }
      else
        let nb := bgStep c.bg p.v g.shift
        { col := { c with run := 0, frozen := frozen, bg := (satI nb g.lo g.hi).toNat,
                          pin := if nb < g.lo then 1 else if nb > g.hi then 2 else 0 }
          forced := frozen }

/-- The bound group shows the owned columns held at a bound or frozen (R247, R85). -/
def bgStatus (d : Dev) (w x : Nat) (cols : List BgCol) : Dev :=
  let g := bgA w x
  let d := pokeBit d (g + 8) 4 (cols.any (fun c => c.frozen))
  setPinned d g (pgSeg w) (8 * x + 1) (cols.any (fun c => decide (c.pin = 1))) (cols.any (fun c => decide (c.pin = 2)))

/-- An inspected line: thresholds, then background, then the block's statistics (R243 to R255). -/
def segNormal (d : Dev) (w x : Nat) (f : Tbl Word) (l : SpanLine) (fresh : Bool) : Dev :=
  let s := sgs d w x
  let cfg := vw f (segA w x 0x100)
  let nv := s.nv + 1
  let cols := s.cols.toArray
  let ys := l.y.zipIdx
  let base := ys.map (fun p => bgAt cols s.ob (l.lo + p.2))
  let dev : List Int := (l.y.zip base).map (fun pb =>
    if pb.1.m || !pb.2.seeded then 0 else satI ((pb.1.v : Int) - bgLevel pb.2) (-32768) 32767)
  let act := texture l.t (fld cfg 21 20)
  let flags := ((l.y.zip base).zip (dev.zip act)).map (fun q =>
    if q.1.1.m || !q.1.2.seeded then 0 else rawFlags cfg q.2.1 q.2.2 (thr d w x 0) (thr d w x 1) (thr d w x 2))
  let fa := flags.toArray
  let dil := vf f (segA w x 0x104) 2 0
  let b := bgBounds f w x
  let g : BgCfg := { shift := vf f (segA w x 0x104) 31 28, hold := vf f (segA w x 0x108) 7 0,
                     max := vf f (segA w x 0x108) 31 16, lo := b.1, hi := b.2 }
  let ya := l.y.toArray
  let outs : List BgOut := s.cols.zipIdx.map (fun ci =>
    let col := s.ob + ci.2
    if col < l.lo ∨ col ≥ l.lo + l.y.length then { col := ci.1 }
    else
      let i := col - l.lo
      let near := (List.range (2 * dil + 1)).any (fun j => decide (dil ≤ i + j) && decide (fa.getD (i + j - dil) 0 ≠ 0))
      bgCol g nv near (decide (fa.getD i 0 ≠ 0)) ci.1 (ya.getD i default))
  let owned := fun (k : Nat) => decide (l.ownLo ≤ s.ob + k) && decide (s.ob + k ≤ l.ownHi)
  let late := (outs.zipIdx.filter (fun o => o.1.late && owned o.2)).map (fun o => s.ob + o.2)
  let forced := (outs.filter (fun o => o.forced)).length
  let stat := ((l.y.zip base).zip ((dev.zip act).zip flags)).zipIdx.filter (fun q =>
    decide (l.ownLo ≤ l.lo + q.2) && decide (l.lo + q.2 ≤ l.ownHi) && !q.1.1.1.m && q.1.1.2.seeded &&
      decide (q.1.2.2 = 0))
  let ncols := outs.map (fun o => o.col)
  let fl : FLine := { n := l.n, stamp := l.stamp, kind := 0, fresh := fresh, lo := l.lo, ownLo := l.ownLo,
                      ownHi := l.ownHi, station := l.station, y := l.y, dev := dev, flags := flags,
                      pieces := late.map (fun c => (0x12, c, 1)) }
  let d := setSgs d w x { s with
    nv := nv, cols := ncols, post := true, owned := l.ownHi + 1 - l.ownLo,
    sdev := s.sdev + stat.foldl (fun a q => a + q.1.2.1.1.natAbs) 0,
    stex := s.stex + stat.foldl (fun a q => a + q.1.2.1.2) 0, cnt := s.cnt + stat.length, pend := s.pend ++ [fl] }
  let d := if forced = 0 then d else evt (countBy d (segA w x 0x128) 31 0 forced) (pgSeg w) (8 * x + 4)
  let d := countBy d (segA w x 0x124) 31 0 late.length
  bgStatus d w x ((ncols.zipIdx.filter (fun c => owned c.2)).map (fun c => c.1))

/-- A learning line (R249). -/
def segLearn (d : Dev) (w x : Nat) (f : Tbl Word) (l : SpanLine) : Dev :=
  let s := sgs d w x
  let ya := l.y.toArray
  let cols := s.cols.zipIdx.map (fun ci =>
    let col := s.ob + ci.2
    if col < l.lo ∨ col ≥ l.lo + l.y.length then ci.1
    else learnCol (vf f (segA w x 0x104) 27 24) (bgBounds f w x) ci.1 (ya.getD (col - l.lo) default))
  let fl : FLine := { n := l.n, stamp := l.stamp, kind := 2, lo := l.lo, ownLo := l.ownLo, ownHi := l.ownHi,
                      station := l.station, y := l.y, pieces := [(0x12, l.ownLo, l.ownHi + 1 - l.ownLo)] }
  count (setSgs d w x { s with cols := cols, learn := s.learn - 1, learnDone := decide (s.learn ≤ 1), nv := s.nv + 1,
                               pend := s.pend ++ [fl] }) (segA w x 0x120)

/-- At the end of learning each threshold is set to THR_INIT clipped to its bounds (R258). -/
def learnEnd (d : Dev) (w x : Nat) (f : Tbl Word) : Dev :=
  let d := evt d (pgSeg w) (8 * x + 3)
  (List.range 3).foldl (fun d k =>
    let b := groupBounds f (athA w x k)
    let t0 : Int := vf f (segA w x (0x140 + 0x10 * k)) 15 0
    let t := satI t0 b.1 b.2
    setPinned (poke d (segA w x (0x148 + 0x10 * k)) 15 0 t.toNat) (athA w x k) (pgSeg w) (8 * x)
      (decide (t0 < b.1)) (decide (t0 > b.2))) d

/-- Mean of a block's sums (R255). -/
def blockMean (sum n : Nat) : Nat := if n = 0 then 0 else (sum + n / 2) / n

/-- One class's threshold at a block end (R255, R256). -/
def thrEnd (d : Dev) (w x k : Nat) (f : Tbl Word) (s : SegSt) : Dev :=
  let mk := if k = 2 then blockMean s.stex s.cnt else blockMean s.sdev s.cnt
  let adapt := vb f (segA w x 0x100) (24 + k)
  let still := adapt && decide (s.cnt < s.owned * 256 / 16)
  let a := segA w x (0x14C + 0x10 * k)
  let g := athA w x k
  let d := pokeBit (poke (pokeBit d a 31 still) a 15 0 mk) (g + 8) 4 still
  if still then d
  else
    let step : Int := vf f (segA w x (0x144 + 0x10 * k)) 12 0
    let cur : Int := thr d w x k
    let tc : Int := if adapt then ((vf f (segA w x (0x144 + 0x10 * k)) 31 16 * mk + 128) / 256 : Nat)
      else (vf f (segA w x (0x140 + 0x10 * k)) 15 0 : Nat)
    let b := groupBounds f g
    let o := loopStep cur (cur + satI (tc - cur) (-step) step) b.1 b.2 step
    setPinned (poke d (segA w x (0x148 + 0x10 * k)) 15 0 o.value.toNat) g (pgSeg w) (8 * x) o.lo o.hi

/-- A system block ends: thresholds update with the values of the block's last line, and the statistics start
anew (R255, R256, R259). -/
def blockEnd (d : Dev) (w x : Nat) : Dev :=
  let s := sgs d w x
  let f := forceOf d s.lastVer
  let d := if s.post then (List.range 3).foldl (fun d k => thrEnd d w x k f s) d else d
  setSgs d w x { (sgs d w x) with sdev := 0, stex := 0, cnt := 0, post := false, block := none }

/-- Segmentation takes one released line of a context (R240 to R259). -/
def segLine (d : Dev) (w x : Nat) (l : SpanLine) : Dev :=
  let f := forceOf d l.stamp.ver
  let s := sgs d w x
  let en := vb f (segA w x 0x100) 31
  let start := en && (!s.en || s.learnAt.any (fun v => decide (v ≤ l.stamp.ver)))
  let d := if s.block.isSome && decide (s.block ≠ some (l.n / 256)) then blockEnd d w x else d
  let s := sgs d w x
  let s := if start then learnStart f w x s l.stamp.ver else s
  let fresh := s.learnDone
  let s := { s with en := en, block := some (l.n / 256), lastVer := l.stamp.ver, learnDone := false }
  let d := setSgs d w x s
  let d := if fresh then learnEnd d w x f else d
  let own := (l.y.drop (l.ownLo - l.lo)).take (l.ownHi + 1 - l.ownLo)
  let d :=
    if !en || own.all (fun p => p.m) then
      let s := sgs d w x
      let fl : FLine := { n := l.n, stamp := l.stamp, kind := 1, fresh := fresh, lo := l.lo, ownLo := l.ownLo,
                          ownHi := l.ownHi, station := l.station, y := l.y }
      setSgs d w x { s with pend := s.pend ++ [fl], post := s.post || (en && decide (s.learn = 0)) }
    else if s.learn ≠ 0 then segLearn d w x f l
    else segNormal d w x f l fresh
  pokeBit d (segA w x 0x110) 31 (decide ((sgs d w x).learn ≠ 0))

/-- Primitive steps of an operation: true erodes (R260). -/
def opSteps (op : Nat) : List Bool :=
  match op with
  | 1 => [true, false]
  | 2 => [false, true]
  | 3 => [true, false, false, true]
  | 4 => [false, true, true, false]
  | _ => []

/-- Largest number of primitive steps among the enabled classes (R262). -/
def morphP (f : Tbl Word) (w x : Nat) : Nat :=
  let m := vw f (segA w x 0x10C)
  let c := vw f (segA w x 0x100)
  (List.range 3).foldl (fun a k =>
    if bitOf c (30 - k) then Nat.max a (opSteps (fld m (4 * k + 2) (4 * k))).length else a) 0

/-- Reach across the web (R262). -/
def morphReach (f : Tbl Word) (w x : Nat) : Nat := (vf f (segA w x 0x10C) 31 28 - 1) / 2 * morphP f w x

/-- Delay DV in lines (R263). -/
def morphDv (f : Tbl Word) (w x : Nat) : Nat := (vf f (segA w x 0x10C) 27 24 - 1) / 2 * morphP f w x

/-- One primitive step on rows of (flag, mask) pairs; each end loses `hh` rows (R260, R261). -/
def morphStep (er : Bool) (hw hh : Nat) (rows : List (Array (Bool × Bool))) : List (Array (Bool × Bool)) :=
  let n := (rows.headD #[]).size
  let horiz := rows.map (fun r =>
    let src := r.map (fun p => if er then p.1 || p.2 else p.1 && !p.2)
    ((List.range n).map (fun (c : Nat) =>
      let js := (List.range (2 * hw + 1)).map (fun j => src.getD (satI ((c : Int) - hw + j) 0 ((n : Int) - 1)).toNat false)
      if er then js.all (fun b => b) else js.any (fun b => b))).toArray)
  (List.range (rows.length - 2 * hh)).map (fun i =>
    let win := (horiz.drop i).take (2 * hh + 1)
    let masks := rows.getD (i + hh) #[]
    ((List.range n).map (fun c =>
      let js := win.map (fun r => r.getD c false)
      ((if er then js.all (fun b => b) else js.any (fun b => b)), (masks.getD c (false, false)).2))).toArray)

/-- The flags and mask of a line of the window over the working span of line `me` (R261). -/
def windowRow (me z : FLine) (k : Nat) : Array (Bool × Bool) :=
  let fa := z.flags.toArray
  let ya := z.y.toArray
  ((List.range me.y.length).map (fun i =>
    let j := (satI (((me.lo + i : Nat) : Int) - z.lo) 0 ((ya.size : Int) - 1)).toNat
    ((fa.getD j 0).testBit k, (ya.getD j default).m))).toArray

/-- The inspected line of a window nearest to place `i`, the older of two equally near (R261). -/
def nearestLine (win : List (Option FLine)) (i : Nat) : Option FLine :=
  (List.range win.length).findSome? (fun d =>
    if d ≤ i ∧ (win.getD (i - d) none).isSome then win.getD (i - d) none else win.getD (i + d) none)

/-- The cleaned class flags of a line from its window of 2·DV + 1 lines, void and learning lines none
(R260 to R262). -/
def morphClean (f : Tbl Word) (w x : Nat) (me : FLine) (win : List (Option FLine)) : List Nat :=
  let m := vw f (segA w x 0x10C)
  let hw := (fld m 31 28 - 1) / 2
  let hh := (fld m 27 24 - 1) / 2
  let mid := win.length / 2
  match nearestLine win mid with
  | none => me.y.map (fun _ => 0)
  | some _ =>
    let per := (List.range 3).map (fun k =>
      let ops := opSteps (fld m (4 * k + 2) (4 * k))
      let half := ops.length * hh
      let rows := (List.range (2 * half + 1)).map (fun i =>
        windowRow me ((nearestLine win (mid - half + i)).getD me) k)
      (ops.foldl (fun rs er => morphStep er hw hh rs) rows).getD 0 #[])
    me.y.zipIdx.map (fun p =>
      if p.1.m then 0
      else (List.range 3).foldl (fun a k => a + (((per.getD k #[]).getD p.2 (false, false)).1).toNat * 2 ^ k) 0)

/-- Extend the runs of a line by one flagged column (R264, R265). Newest run first. -/
def addCol (rs : List Run) (station col cls : Nat) (p : Px) (dev : Int) : List Run :=
  let fresh : Run := { start := col, fin := col, cls := cls, station := station, sum := p.v, peak := dev, max := p.v, min := p.v }
  match rs with
  | r :: t =>
    if r.fin + 1 = col then
      { r with fin := col, cls := r.cls ||| cls, sum := r.sum + p.v, max := Nat.max r.max p.v, min := Nat.min r.min p.v
               peak := if dev.natAbs > r.peak.natAbs then dev else r.peak } :: t
    else fresh :: r :: t
  | [] => [fresh]

/-- The runs of a line over its owned columns, left to right (R264). -/
def runsOf (f : Tbl Word) (w x : Nat) (me : FLine) (flags : List Nat) : List Run :=
  let satf := vb f (segA w x 0x100) 27
  let da := me.dev.toArray
  let fa := flags.toArray
  (me.y.zipIdx.foldl (fun rs p =>
    let col := me.lo + p.2
    if col < me.ownLo ∨ col > me.ownHi then rs
    else
      let fl := fa.getD p.2 0 + (if satf && p.1.s && !p.1.m then 8 else 0)
      if fl = 0 then rs
      else addCol rs me.station col (fl ||| (if p.1.s then 8 else 0)) p.1 (da.getD p.2 0)) []).reverse

/-- Free places in a wale's run queue (R87, R268). -/
def queueFree (d : Dev) (w : Nat) : Nat :=
  8192 - (d.rods.filter (fun m => decide (m.wale = w))).foldl (fun a m => a + m.runs.length) 0

/-- Whether the oldest waiting line may form its runs: DV further lines are thresholded, or the context's
line stream has ended (R263). -/
def formReady (d : Dev) (w x : Nat) (l : FLine) (rest : List FLine) : Bool :=
  decide (rest.length ≥ morphDv (forceOf d l.stamp.ver) w x) ||
    ((camStation d.force w x).isNone && !(x = 0 && d.jobs.any (fun e => (e.2.map (fun j => decide (j.tgt = w ∧ !j.ovr))).getD false)))

/-- The runs and marker of a waiting line leave for the tracker, with its gaps and the run budget (R263 to
R270). -/
def formRuns (d : Dev) (w x : Nat) : Dev :=
  let s := sgs d w x
  match s.pend with
  | [] => d
  | l :: rest =>
    if formReady d w x l rest then
      let f := forceOf d l.stamp.ver
      let dv := morphDv f w x
      let owned := l.ownHi + 1 - l.ownLo
      let a := segA w x 0x110
      let renew := l.fresh || decide (s.credBlock ≠ some (l.n / 256))
      let d := if renew then pokeBit (poke d (segA w x 0x114) 23 0 (owned * 32)) a 30 false else d
      let wf := wst d w x
      let hurt := wf.faults.contains 2 || wf.faults.contains 3
      let d := if hurt then setWst d w x { wf with faults := (wf.faults.erase 2).erase 3 } else d
      let before := (s.hist.drop (s.hist.length - dv)).map (fun h => if h.kind = 0 then some h else none)
      let after := (rest.take dv).map (fun h => if h.kind = 0 then some h else none)
      let win := List.replicate (dv - before.length) none ++ before ++ [some l] ++ after ++
        List.replicate (dv - after.length) none
      let live := decide (l.kind = 0) && !hurt
      let sat0 := rb d a 30 && decide (l.kind ≠ 2)
      let runs := if live && !sat0 then runsOf f w x l (morphClean f w x l win) else []
      let credit := rf d (segA w x 0x114) 23 0
      let cause := (decide (runs.length > credit)).toNat + 2 * (decide (runs.length > queueFree d w)).toNat
      let new := live && !sat0 && decide (cause ≠ 0)
      let satd := sat0 || new
      let d := if new then evt (poke (count d (segA w x 0x11C)) a 29 28 cause) (pgSeg w) (8 * x + 2) else d
      let runs := if new then [] else runs
      let d := poke d (segA w x 0x114) 23 0 (credit - runs.length)
      let d := wrapBy d (segA w x 0x118) 31 0 runs.length
      let d := pokeBit d a 30 satd
      let c := gapCls w x
      let pieces := if hurt then [(0x17, l.ownLo, owned)]
        else l.pieces ++ (if live && satd then [(0x13, l.ownLo, owned)] else [])
      let r := mergeGaps d s.gaps l.station l.n l.stamp
        (pieces.map (fun p => { cause := p.1, left := p.2.1, width := p.2.2, cls := c }))
      let d := r.1
      let mk : Marker := { wale := w, ctx := x, station := l.station, n := l.n, stamp := l.stamp,
                           void := decide (l.kind = 1) || hurt, learn := decide (l.kind = 2) && !hurt,
                           satd := live && satd, count := runs.length, ownLo := l.ownLo, ownHi := l.ownHi, runs := runs }
      let h := s.hist ++ [l]
      let d := setSgs d w x { s with pend := rest, hist := h.drop (h.length - 28), credBlock := some (l.n / 256), gaps := r.2 }
      { d with rods := d.rods ++ [mk] }
    else d

/-- A background column as the wale table window shows it (R272). -/
def bgWord (d : Dev) (w x i : Nat) : Nat :=
  let c := (sgs d w x).cols.getD i {}
  c.bg + 2 ^ 24 * (decide (c.pin ≠ 0)).toNat + 2 ^ 25 * c.seeded.toNat

end Sys2Proof.Machine
end

