-- ==== Sys2Proof/Machine/Release.lean ====
section
/-!
DEFINITION. A station releases a system line: seams, working spans, the gaps of geometry, and the hand-over to
segmentation (R225 to R234, R474).
-/

namespace Sys2Proof.Machine

/-- One camera of a station at a line's release: its context, owned span and contribution (R226). -/
structure CamCon where
  w : Nat
  x : Nat
  lo : Nat
  hi : Nat
  blend : Nat
  base : Nat
  feats : List Nat
  planes : List (Array Px)
  deriving Repr

/-- The camera's contribution at a system column in plane `pl`: 0 is Y, `k + 1` feature plane `k`; none
outside its output span or where the plane is not formed. -/
def conAt (c : CamCon) (pl col : Nat) : Option Px :=
  if col < c.base then none
  else
    let idx := if pl = 0 then some 0 else (c.feats.idxOf? (pl - 1)).map (· + 1)
    match idx with
    | none => none
    | some k => (c.planes.getD k #[])[col - c.base]?

/-- The value of a column where the contributions of cameras L and R are blended (R226). -/
def blendPx (blend i : Nat) (l r : Px) : Px :=
  if l.m && r.m then { v := 0, m := true, s := false }
  else if l.m then r
  else if r.m then l
  else
    let wr : Nat := ((2 * i + 1) * 16384) / (2 * blend)
    { v := ((16384 - wr) * l.v + wr * r.v + 8192) / 16384, m := false, s := l.s || r.s }

/-- A masked sample stands where a camera has no contribution. -/
def noPx : Px := { v := 0, m := true, s := false }

/-- Rules 1 to 3 of R227 for a column of camera `me`'s working span, among the cameras of its station. -/
def spanPx (cams : List CamCon) (me : CamCon) (pl col : Nat) : Option Px :=
  let seam := cams.findSome? (fun l =>
    let h := l.blend / 2
    let b := l.hi + 1
    if h ≠ 0 ∧ b ≤ col + h ∧ col < b + h then
      (cams.find? (fun r => decide (r.lo = b))).map (fun r =>
        blendPx l.blend (col + h - b) ((conAt l pl col).getD noPx) ((conAt r pl col).getD noPx))
    else none)
  match seam with
  | some p => some p
  | none =>
    match cams.find? (fun c => decide (c.lo ≤ col ∧ col ≤ c.hi) && !decide (c.w = me.w ∧ c.x = me.x)) with
    | some c => some ((conAt c pl col).getD noPx)
    | none => conAt me pl col

/-- The working span of a camera in one plane, with rule 4 for the columns left (R227). -/
def spanLine (cams : List CamCon) (me : CamCon) (pl : Nat) : Nat × List Px :=
  let lo := me.lo - 8
  let hi := min (me.hi + 8) 1048575
  let vs := (List.range (hi + 1 - lo)).map (fun i => spanPx cams me pl (lo + i))
  let va := vs.toArray
  (lo, vs.zipIdx.map (fun v =>
    match v.1 with
    | some p => p
    | none =>
      ((List.range (va.size + 1)).findSome? (fun k =>
        if k ≤ v.2 ∧ (va.getD (v.2 - k) none).isSome then va.getD (v.2 - k) none else va.getD (v.2 + k) none)).getD noPx))

/-- The stamp of a system line that has none (R474); what its records report of place and time is free. -/
def unstamped (d : Dev) (n : Nat) : Stamp :=
  { sysLine := n, web := (Config.unstampedWeb n).toInt, time := (Config.unstampedTime n).toNat, epoch := d.pos.epoch,
    ver := d.ver }

/-- The part of a run of output columns that the camera owns, as gap pieces (R232). -/
def stagPieces (lo hi base cls : Nat) (stag : List Bool) : List GapPiece :=
  (colRuns ((stag.zipIdx.filter (fun s => s.1 && decide (lo ≤ base + s.2) && decide (base + s.2 ≤ hi))).map
    (fun s => base + s.2))).map (fun r => { cause := 0x10, left := r.1, width := r.2, cls := cls })

/-- Whether a camera's context is stopped: its die isolated (R75). -/
def stopCause (d : Dev) (w : Nat) : Option Nat :=
  if d.iso.contains (w / 4) then some 0x18 else none

/-- The contribution of a camera to line `n` as it stands at the release, and whether it is missing. -/
def takeContrib (d : Dev) (f : Tbl Word) (w x n : Nat) (stamped : Bool) : Contrib × Bool :=
  match stopCause d w with
  | some c => (maskedContrib f w x n (some c), false)
  | none =>
    if !stamped then (maskedContrib f w x n (some 0x11), false)
    else
      match (wst d w x).contribs.find? (fun c => decide (c.line = n)) with
      | some c => (c, false)
      | none => (maskedContrib f w x n (some 0x11), true)

/-- Count and merge the gaps of one camera at the release of line `n` (R230, R232). -/
def camGaps (d : Dev) (f : Tbl Word) (ss n : Nat) (st : Stamp) (c : Nat × Nat) (k : Contrib × Bool) : Dev :=
  let w := c.1
  let x := c.2
  let own := ownedSpan f w x
  let d := if k.2 then evt (count (count d (cx (pgGeom w) x 0x12C)) (ra pgStitch 0x10C)) pgStitch 0 else d
  let ps : List GapPiece := match k.1.cause with
    | some q => [{ cause := q, left := own.1, width := own.2 + 1 - own.1, cls := gapCls w x }]
    | none => stagPieces own.1 own.2 k.1.base (gapCls w x) k.1.stag
  let s := wst d w x
  let r := mergeGaps d s.sysGaps ss n st ps
  setWst r.1 w x { (wst r.1 w x) with sysGaps := r.2,
                                      contribs := s.contribs.filter (fun q => decide (q.line > n)) }

/-- The owned columns of a released line, as patch staging keeps them (R349): planes by number. -/
def stagedPart (ccs : List CamCon) (me : CamCon) : Nat × List (Nat × List Nat) :=
  (me.lo, ((0 :: me.feats.map (· + 1)).map (fun pl =>
    (pl, (List.range (me.hi + 1 - me.lo)).map (fun i => ((spanPx ccs me pl (me.lo + i)).getD noPx).v)))))

/-- A stitched line goes to segmentation. On a joining part the output before block b_c is discarded, and from b_c on
the lines wait in the catch-up region until the snapshot is in place (R539). -/
def takeSpan (d : Dev) (w x : Nat) (l : SpanLine) : Dev :=
  if pairEn d && decide (pairState d = 2) then
    match d.pair.joinFrom with
    | none => d
    | some bc =>
      if l.n < 256 * bc then d
      else if rf d (ra pgPair 0x12C) 31 29 = 4 then segLine d w x l
      else
        poke { d with pair := { d.pair with buf := d.pair.buf ++ [(w, x, l)] } } (ra pgPair 0x12C) 19 0 (l.n + 1 - 256 * bc)
  else segLine d w x l

/-- Gap runs by system line of a camera that has no part in line `n` of its station close: the next gap line of that
camera does not follow theirs (R232, R269). -/
def closeAbsent (d : Dev) (ss n : Nat) (cams : List (Nat × Nat)) : Dev :=
  (List.range 32).foldl (fun d k =>
    let w := k / 2
    let x := k % 2
    let s := wst d w x
    let g := sgs d w x
    let due := fun (r : GapRun) => decide (r.station = ss) && decide (r.lastNo < n)
    if cams.contains (w, x) || !g.pend.isEmpty || !(s.sysGaps ++ g.gaps).any due then d
    else
      let d := flushGaps d ((s.sysGaps ++ g.gaps).filter due)
      setSgs (setWst d w x { (wst d w x) with sysGaps := s.sysGaps.filter (fun r => !due r) }) w x
        { (sgs d w x) with gaps := g.gaps.filter (fun r => !due r) }) d

/-- Release system line `n` of station `ss` to segmentation (R227, R229, R230). -/
def releaseLine (d : Dev) (ss n : Nat) (stamp : Option Stamp) : Dev :=
  let f := lineForce d stamp
  let st := stamp.getD (unstamped d n)
  let cams := camsOf f ss
  let cons := cams.map (fun c => (c, takeContrib d f c.1 c.2 n stamp.isSome))
  let d := closeAbsent (cons.foldl (fun d c => camGaps d f ss n st c.1 c.2) d) ss n cams
  let ccs := cons.map (fun c =>
    let w := c.1.1
    let x := c.1.2
    let own := ownedSpan f w x
    ({ w := w, x := x, lo := own.1, hi := own.2, blend := vf f (cx (pgGeom w) x 0x114) 9 0, base := c.2.1.base,
       feats := c.2.1.feats, planes := c.2.1.planes.map List.toArray } : CamCon))
  let d := ccs.foldl (fun d me =>
    let y := spanLine ccs me 0
    let src := vf f (segA me.w me.x 0x100) 23 22
    let t := if src = 0 then y.2
      else (((spanLine ccs me src).2).zip y.2).map (fun p => { p.1 with m := p.1.m || p.2.m })
    takeSpan d me.w me.x { n := n, stamp := { st with sysLine := n }, station := ss, lo := y.1, ownLo := me.lo,
                           ownHi := me.hi, y := y.2, t := t }) d
  let t := tat d.stn ss
  let sl := { n := n, parts := ccs.map (stagedPart ccs) } :: t.staged
  { d with stn := tset d.stn ss { next := n + 1, first := t.first.filter (fun e => decide (e.1 > n)),
                                  staged := sl.take Config.stagingDepth } }

/-- The next line station `ss` has to release: the first one for which it has an enabled camera (R229). -/
def nextRelease (d : Dev) (ss : Nat) : Option (Nat × Option Stamp) :=
  (linesFrom d (tat d.stn ss).next).find? (fun e => !(camsOf (lineForce d e.2) ss).isEmpty)

/-- Whether every enabled camera of the station has contributed to the line (R229). -/
def releaseReady (d : Dev) (ss : Nat) (e : Nat × Option Stamp) : Bool :=
  let f := lineForce d e.2
  (camsOf f ss).all (fun c => !(takeContrib d f c.1 c.2 e.1 e.2.isSome).2)

/-- The station releases its next line when it is complete (R229). -/
def releaseNext (d : Dev) (ss : Nat) : Dev :=
  match nextRelease d ss with
  | none => d
  | some e => if releaseReady d ss e then releaseLine d ss e.1 e.2 else d

/-- Release every line of the station up to `n`, in order (R230). -/
def releaseUpTo (ss n : Nat) : Nat → Dev → Dev
  | 0, d => d
  | k + 1, d =>
    match nextRelease d ss with
    | none => d
    | some e => if e.1 ≤ n then releaseUpTo ss n k (releaseLine d ss e.1 e.2) else d

/-- The line of a station whose release timeout ends first, with the edge it ends on (R230). -/
def firstTimeout (d : Dev) (ss : Nat) : Option (Nat × Nat) :=
  let wait := (inForce d (ra pgStitch 0x104)).toNat
  match (tat d.stn ss).first with
  | [] => none
  | e :: es =>
    let r := es.foldl (fun a b => if b.2 < a.2 then b else a) e
    some (r.1, r.2 + wait)

/-- Columns of the part span that no enabled camera of the station owns (R210, R239). -/
def uncovered (f : Tbl Word) (ss : Nat) : Nat :=
  let base := vf f (ra pgStitch 0x100) 19 0
  let own := (camsOf f ss).map (fun c => ownedSpan f c.1 c.2)
  524288 - own.foldl (fun a o =>
    let lo := max o.1 base
    let hi := min o.2 (base + 524287)
    a + (hi + 1 - lo)) 0

end Sys2Proof.Machine
end

