-- ==== Sys2Proof/Machine/Tracker.lean ====
section
/-!
DEFINITION. The coil tracker: handles, the frontier, parking, and what a coil does when it opens, merges, is cut,
closes or is flushed, with the shares that reach a neighbour (R274 to R319).
-/

namespace Sys2Proof.Machine

/-- Number of coil handles (R283). -/
def handleCount : Nat := 1114112

/-- The handle of an empty frontier entry (R279). -/
def noHandle : Nat := 0x1FFFFF

/-- Change the tracker. -/
def setTrk (d : Dev) (t : Tracker) : Dev := { d with trk := t }

/-- What handle `h` maps to. -/
def hget (d : Dev) (h : Nat) : HandleEnt := tat d.trk.handles h

/-- Replace what handle `h` maps to. -/
def hset (d : Dev) (h : Nat) (e : HandleEnt) : Dev := setTrk d { d.trk with handles := tset d.trk.handles h e }

/-- The coil a handle entry holds open, if any. -/
def openOf : HandleEnt → Option Coil
  | .resident c => some c
  | .parked _ c => some c
  | _ => none

/-- The open coil of a handle. -/
def coilAt (d : Dev) (h : Nat) : Option Coil := openOf (hget d h)

/-- Follow forwards to an open coil (R286). -/
def resolveLoop (d : Dev) : Nat → Nat → Option Nat
  | 0, _ => none
  | fuel + 1, h =>
    match hget d h with
    | .forward dest _ _ => resolveLoop d fuel dest
    | .resident _ => some h
    | .parked _ _ => some h
    | _ => none

/-- The open coil a handle leads to (R286). -/
def resolve (d : Dev) (h : Nat) : Option Nat := resolveLoop d (d.trk.handles.length + 1) h

/-- The open coils of station `ss`. -/
def openCoils (d : Dev) (ss : Nat) : List (Nat × Coil) :=
  d.trk.handles.filterMap (fun e =>
    match openOf e.2 with
    | some c => if c.station = ss then some (e.1, c) else none
    | none => none)

/-- Replace the context of an open coil. -/
def putCoil (d : Dev) (h : Nat) (c : Coil) : Dev :=
  match hget d h with
  | .parked s _ => hset d h (.parked s c)
  | _ => hset d h (.resident c)

/-- Whether a handle takes a resident slot (R295). -/
def isRes (e : Nat × HandleEnt) : Bool :=
  match e.2 with
  | .resident _ => true
  | .closed _ _ => true
  | _ => false

/-- Whether a handle takes a QDR-IV slot. -/
def slotOf (e : Nat × HandleEnt) : Option Nat :=
  match e.2 with
  | .parked s _ => some s
  | _ => none

/-- Whether a handle is a forward. -/
def isFwd (e : Nat × HandleEnt) : Bool :=
  match e.2 with
  | .forward _ _ _ => true
  | _ => false

/-- The counts of coils shown in registers, and PARKED_HIGH (R321 to R323). -/
def trkCounts (d : Dev) : Dev :=
  let hs := d.trk.handles
  let was := rf d (ra pgTrk 0x108) 20 0
  let np := (hs.filterMap slotOf).length
  let d := poke d (ra pgTrk 0x104) 16 0 (hs.filter isRes).length
  let d := poke d (ra pgTrk 0x108) 20 0 np
  let d := poke d (ra pgTrk 0x10C) 20 0 (hs.filter isFwd).length
  let d := (List.range 8).foldl (fun d ss => poke d (ra pgTrk (0x214 + 0x20 * ss)) 20 0 (openCoils d ss).length) d
  if was ≤ 943718 ∧ np > 943718 then evt d pgTrk 7 else d

/-- The first number from `i`, counted modulo `n`, that is not in use. -/
def firstFree (n : Nat) (used : Nat → Bool) : Nat → Nat → Option Nat
  | 0, _ => none
  | fuel + 1, i => if used (i % n) then firstFree n used fuel (i + 1) else some (i % n)

/-- The next number from which a free place is searched. -/
def nextPick (d : Dev) : Nat × Dev :=
  (Config.handlePick d.trk.opens, setTrk d { d.trk with opens := d.trk.opens + 1 })

/-- Whether the shares of side `right` are exchanged: enabled and not broken (R309, R318). -/
def sideUp (d : Dev) (f : Tbl Word) (right : Bool) : Bool :=
  vb f (ra pgTrk 0x160) (if right then 30 else 31) && !rb d (ra pgTrk 0x164) (if right then 30 else 31)

/-- The state of a side. -/
def sideOf (d : Dev) (right : Bool) : SeamSide := if right then d.trk.right else d.trk.left

/-- Replace the state of a side. -/
def setSide (d : Dev) (right : Bool) (s : SeamSide) : Dev :=
  setTrk d (if right then { d.trk with right := s } else { d.trk with left := s })

/-- Whether an owner waits on a tributary (R314). -/
def waiting (d : Dev) (h : Nat) : Bool := d.trk.links.any (fun l => l.right && decide (resolve d l.mine = some h))

/-- The owner of a tributary share, as its link names it (R312). -/
def ownerOf (d : Dev) (h : Nat) : Option SeamLink :=
  d.trk.links.find? (fun l => !l.right && decide (resolve d l.mine = some h))

/-- A coil with pending seam business is not parked (R295, R314). -/
def seamBusy (d : Dev) (h : Nat) (c : Coil) : Bool :=
  waiting d h || c.trib || (c.seam && (d.trk.left.own ++ d.trk.right.own).any (fun o => decide (o.station = c.station)))

/-- Park a resident coil in a free QDR-IV slot, if there is one (R295, R435). -/
def parkCoil (d : Dev) (h : Nat) (c : Coil) : Option Dev :=
  let used := d.trk.handles.filterMap slotOf ++ d.trk.retired
  let p := nextPick d
  match firstFree 1048576 (fun s => used.contains s) (used.length + 1) p.1 with
  | none => none
  | some s =>
    if used.length ≥ 1048576 then none
    else
      let d := hset p.2 h (.parked s c)
      some (count (setTrk d { d.trk with slots := tset d.trk.slots s (coilWords c) }) (ra pgTrk 0x130))

/-- The coils a forced park may choose from: resident, not needed, the oldest LAST (R294, R296). -/
def parkChoice (d : Dev) (need : List Nat) : List (Nat × Coil) :=
  let cs := d.trk.handles.filterMap (fun e =>
    match e.2 with
    | .resident c => if need.contains e.1 || seamBusy d e.1 c then none else some (e.1, c)
    | _ => none)
  match cs.map (fun c => coilLast c.2) with
  | [] => []
  | l :: ls =>
    let o := ls.foldl Nat.min l
    cs.filter (fun c => decide (coilLast c.2 = o))

/-- A resident slot is free, by a forced park where needed (R296). -/
def makeRoom (d : Dev) (need : List Nat) : Option Dev :=
  if (d.trk.handles.filter isRes).length < 65536 then some d
  else
    let cs := parkChoice d need
    match cs[Config.parkPick d.trk.opens % cs.length]? with
    | none => none
    | some c => (parkCoil d c.1 c.2).map (fun d => evt (count d (ra pgTrk 0x134)) pgTrk 5)

/-- The reprocess jobs running (R396). -/
def runningJobs (d : Dev) : List Job := d.jobs.filterMap (fun e => e.2)

/-- Whether station `ss` belongs to a reprocess job, and the job stations hold all the coils they may (R400). -/
def jobFull (d : Dev) (ss : Nat) : Bool :=
  (runningJobs d).any (fun j => decide (j.stn = ss)) &&
    decide (4096 ≤ (runningJobs d).foldl (fun a j => a + (openCoils d j.stn).length) 0)

/-- Whether a coil's last line is the last of a reprocess job's range (R400). -/
def jobCut (d : Dev) (c : Coil) : Bool :=
  (runningJobs d).any (fun j => decide (j.stn = c.station ∧ coilLast c + 1 = j.firstLine + j.lines))

/-- Open a coil for a run (R283), or nothing when no handle or slot is to be had (R292, R400). -/
def openCoil (d : Dev) (need : List Nat) (ss n : Nat) (r : Run) : Option (Dev × Nat) :=
  match if jobFull d ss then none else makeRoom d need with
  | none => none
  | some d =>
    let p := nextPick d
    let d := p.2
    if d.trk.handles.length ≥ handleCount then none
    else
      match firstFree handleCount (fun h => decide (hget d h ≠ .free)) (d.trk.handles.length + 1) p.1 with
      | none => none
      | some h =>
        let id := (reg d (ra pgTrk 0x110)).toNat
        let d := hset d h (.resident (newCoil id n r.start r.fin ss))
        some (count (wrapBy d (ra pgTrk 0x110) 31 0 1) (ra pgTrk 0x120), h)

/-- Bring a parked coil back to a resident slot (R295). -/
def unparkCoil (d : Dev) (need : List Nat) (h : Nat) : Dev :=
  match hget d h with
  | .parked _ c =>
    let d := (makeRoom d (h :: need)).getD d
    count (hset d h (.resident c)) (ra pgTrk 0x138)
  | _ => d

/-- The station's window as it stood at its last line. -/
def trkStn (d : Dev) (ss : Nat) : TrkStn := tat d.trk.stns ss

/-- Replace a station's place in the tracker. -/
def setStn (d : Dev) (ss : Nat) (s : TrkStn) : Dev := setTrk d { d.trk with stns := tset d.trk.stns ss s }

/-- The frontier entry of column `j` of a station (R279). -/
def entAt (d : Dev) (s : TrkStn) (j : Nat) : FrontEnt := tat d.trk.front (s.base + (j - s.col))

/-- Replace the frontier entry of column `j`. -/
def setEnt (d : Dev) (s : TrkStn) (j : Nat) (e : FrontEnt) : Dev :=
  setTrk d { d.trk with front := tset d.trk.front (s.base + (j - s.col)) e }

/-- Whether a column lies in a station's window. -/
def inWin (s : TrkStn) (j : Nat) : Bool := decide (s.col ≤ j ∧ j < s.col + s.len)

/-- `n − LINE` modulo 2^32 (R280). -/
def entAge (n : Nat) (e : FrontEnt) : Nat := (n + 2 ^ 32 - e.line % 2 ^ 32) % 2 ^ 32

/-- Whether an entry is live for line `n` by its line (R280, R282). -/
def liveLine (s : TrkStn) (n : Nat) (e : FrontEnt) : Bool :=
  decide (e.handle ≠ noHandle ∧ entAge n e ≤ s.close ∧ entAge n e + s.floor ≤ n)

/-- The coil a live entry names (R280); the entries of an owner that waits on a tributary stay live (R314). -/
def liveCoil (d : Dev) (s : TrkStn) (n : Nat) (e : FrontEnt) : Option Nat :=
  if e.handle = noHandle then none
  else
    match resolve d e.handle with
    | none => none
    | some h =>
      if liveLine s n e then some h
      else if waiting d h ∧ entAge n e + ((coilAt d h).getD {}).born ≤ n then some h
      else none

/-- Whether a coil carries GAP_ADJ at line `n` (R291, R317). -/
def gapAdjOf (d : Dev) (c : Coil) (n : Nat) : Bool :=
  let s := trkStn d c.station
  c.gapAdj || s.unseen.any (fun u =>
    decide (u.lo ≤ c.right + 1 ∧ c.left ≤ u.hi + 1 ∧ u.firstNo ≤ n) &&
      (if u.nb then decide (c.first ≤ u.lastNo) else decide (c.first ≤ u.lastNo + s.close)))

/-- Whether a coil's record carries SEAM_SPLIT: it was split, or it touches a boundary column of a broken side
(R318). -/
def splitOf (d : Dev) (c : Coil) : Bool :=
  let s := trkStn d c.station
  c.split || (rb d (ra pgTrk 0x164) 31 && decide (c.left ≤ s.col)) ||
    (rb d (ra pgTrk 0x164) 30 && decide (s.col + s.len ≤ c.right + 1))

/-- A record of the tracker waiting for its place in the line's order: absorbed 0, cut 1, close 2 (R308). -/
structure TrkRec where
  rank : Nat
  left : Nat
  body : Rec
  first : Nat
  last : Nat
  deriving DecidableEq, Repr

/-- Form the record of a coil and count it (R307, R321). -/
def formRec (m : Mem) (d : Dev) (f : Tbl Word) (k : RecKind) (c : Coil) (n node : Nat) : Dev × Rec :=
  let c := { c with split := splitOf d c }
  let r := coilRec m d f k c (gapAdjOf d c n) node
  let d := match k with
    | .full _ => count d (ra pgTrk 0x124)
    | _ => count d (ra pgTrk 0x12C)
  let d := if r.2 then evt (count d (ra pgTrk 0x148)) pgTrk 3 else d
  (if c.split then count d (ra pgTrk 0x14C) else d, r.1)

/-- Hand the records of a line to Border in the order of R308. -/
def pushRecs (d : Dev) (rs : List TrkRec) : Dev :=
  let key (r : TrkRec) : Nat := r.rank * 2 ^ 20 + r.left
  (isort (fun a b => decide (key a ≤ key b)) rs).foldl (fun d r => pushCoil d r.body r.first r.last) d

/-- The node that a side's messages go to (R309). -/
def sideNode (f : Tbl Word) (right : Bool) : Nat :=
  if right then vf f (ra pgTrk 0x160) 21 16 else vf f (ra pgTrk 0x160) 29 24

/-- Word 1 of a seam message (R320). -/
def seamW1 (kind ss : Nat) (right : Bool) : Dword := dpack [(60, 4, kind), (57, 3, ss), (56, 1, right.toNat)]

/-- Send a seam message on a side (R320). -/
def sendSeam (d : Dev) (f : Tbl Word) (right : Bool) (ws : List Dword) : Dev :=
  originate d 1 (some (sideNode f right)) ws

/-- Whether side `right` is enabled in a set of values in force. -/
def sideEn (f : Tbl Word) (right : Bool) : Bool := vb f (ra pgTrk 0x160) (if right then 30 else 31)

/-- A tributary's summary leaves for its owner and is kept in the seam journal (R313). -/
def sendSummary (d : Dev) (f : Tbl Word) (l : SeamLink) (cutS : Bool) (line : Nat) (c : Coil) : Dev × Nat :=
  let s := d.trk.left
  let seq := (s.txSeq + 1) % 2 ^ 32
  let c := { c with gapAdj := gapAdjOf d c line }
  let e : SeamSum := { seq := seq, cutS := cutS, line := line, coil := l.coil, node := l.node, ver := d.ver, c := c }
  let d := setTrk d { d.trk with left := { s with txSeq := seq, journal := s.journal ++ [e] } }
  (sendSeam d f false ([seamW1 (if cutS then 3 else 2) c.station false, dpack [(0, 64, line)],
    dpack [(32, 32, seq), (0, 21, l.theirs)]] ++ coilWords c), seq)

/-- A named share that is, or becomes, a tributary emits an ABSORBED record that names its owner (R316). -/
def absorbInto (m : Mem) (d : Dev) (f : Tbl Word) (c : Coil) (n coil node : Nat) : Dev :=
  let r := formRec m d f (.gone coil node) c n (originNode d)
  pushCoil r.1 r.2 c.first (coilLast c)

/-- Coil `h` becomes the tributary of the owner that link `l` names (R312, R316). -/
def becomeTrib (m : Mem) (d : Dev) (f : Tbl Word) (h n : Nat) (l : SeamLink) : Dev :=
  match coilAt d h with
  | none => d
  | some c =>
    let d := setTrk d { d.trk with links := d.trk.links ++ [{ l with right := false, mine := h }] }
    if c.named ∧ !c.trib then
      let d := absorbInto m d f c n l.coil l.node
      let e : Coil := { newCoil c.id (coilLast c) c.left c.right c.station with
                        named := true, gapAdj := c.gapAdj, seam := true, trib := true, split := c.split, born := c.born }
      putCoil d h e
    else putCoil d h { c with trib := true }

/-- The survivor of a merge comes first (R284). -/
def beats (a b : Nat × Coil) : Bool :=
  if a.2.named ≠ b.2.named then a.2.named
  else if a.2.first ≠ b.2.first then decide (a.2.first < b.2.first)
  else if a.2.left ≠ b.2.left then decide (a.2.left < b.2.left)
  else decide (a.1 ≤ b.1)

/-- The seam links of an absorbed coil pass to its survivor; two owners of one share are told to merge (R315). -/
def passLinks (m : Mem) (d : Dev) (f : Tbl Word) (h n : Nat) (gone : Option SeamLink) : Dev :=
  match gone with
  | none => d
  | some l =>
    match ownerOf d h with
    | none => becomeTrib m d f h n l
    | some o =>
      if o.theirs = l.theirs then d
      else
        sendSeam d f false [seamW1 1 ((coilAt d h).getD {}).station false, dpack [(0, 64, n)],
          dpack [(21, 21, o.theirs), (0, 21, l.theirs)]]

/-- Coil `q` is absorbed by coil `h` on line `n` (R284, R286, R290). -/
def absorb (m : Mem) (f : Tbl Word) (n h : Nat) (a : Dev × List TrkRec) (q : Nat × Coil) : Dev × List TrkRec :=
  let d := a.1
  match coilAt d h with
  | none => a
  | some p =>
    let link := ownerOf d q.1
    let s := trkStn d q.2.station
    let r := if q.2.named then
        let r := formRec m d f (.gone p.id (originNode d)) q.2 n (originNode d)
        let still := { p with named := true, gapAdj := p.gapAdj, seam := p.seam || q.2.seam, born := min p.born q.2.born }
        (r.1, still, [{ rank := 0, left := q.2.left, body := r.2, first := q.2.first, last := coilLast q.2 : TrkRec }])
      else (d, foldCoil p q.2, [])
    let d := putCoil r.1 h r.2.1
    let d := setTrk d { d.trk with links := (d.trk.links.filter (fun l => l.right || decide (some l ≠ link))).map
                                     (fun l => if resolve d l.mine = some q.1 then { l with mine := h } else l) }
    let d := count (hset d q.1 (.forward h q.2.station (coilLast q.2 + s.close))) (ra pgTrk 0x128)
    (passLinks m d f h n link, a.2 ++ r.2.2)

/-- A group of coils that a line joins, and the runs that join it, by number. -/
structure JoinGroup where
  hs : List Nat := []
  rs : List Nat := []
  deriving DecidableEq, Repr

/-- The coils of a group merge into one survivor (R284, R294). -/
def mergeGroup (m : Mem) (f : Tbl Word) (n : Nat) (a : Dev × List TrkRec) (g : JoinGroup) :
    (Dev × List TrkRec) × Option Nat :=
  let cs := g.hs.filterMap (fun h => (coilAt a.1 h).map (fun c => (h, c)))
  match isort beats cs with
  | [] => (a, none)
  | p :: qs => (qs.foldl (absorb m f n p.1) a, some p.1)

/-- A run of a line with the coils its reach names (R280), whether it touches a run to its left, and whether it
meets a REFUSED entry. -/
structure LineRun where
  r : Run
  js : List Nat
  adj : Bool
  gap : Bool
  deriving DecidableEq, Repr

/-- What a run of line `n` reaches in the frontier; `prev` is the run to its left (R280, R281). -/
def reachOf (d : Dev) (s : TrkStn) (n : Nat) (prev : Option Run) (r : Run) : LineRun :=
  let adj := match prev with
    | some p => decide (p.fin + 1 = r.start)
    | none => false
  let lo := if adj || !s.conn8 then r.start else r.start - 1
  let hi := if s.conn8 then r.fin + 1 else r.fin
  let es := ((List.range (hi + 1 - lo)).map (fun i => lo + i)).filter (inWin s) |>.map (entAt d s)
  { r := r, adj := adj, js := (es.filterMap (liveCoil d s n)).eraseDups,
    gap := es.any (fun e => e.refused && decide (entAge n e ≤ s.close)) }

/-- What every run of a line reaches. -/
def reachLine (d : Dev) (s : TrkStn) (n : Nat) (rs : List Run) : List LineRun :=
  (rs.zip (none :: rs.map some)).map (fun p => reachOf d s n p.2 p.1)

/-- The groups a line forms, run by run; runs that can neither join nor open are refused (R283, R292). -/
def groupRuns (ss n : Nat) (need : List Nat) :
    List (LineRun × Nat) → Dev → List JoinGroup → List Nat → Dev × List JoinGroup × List Nat
  | [], d, gs, ref => (d, gs, ref)
  | (l, i) :: rest, d, gs, ref =>
    let hit (g : JoinGroup) : Bool := g.hs.any (fun h => l.js.contains h) || (l.adj && decide (1 ≤ i) && g.rs.contains (i - 1))
    let ms := gs.filter hit
    if l.js.isEmpty && ms.isEmpty then
      match openCoil d need ss n l.r with
      | some (d, h) => groupRuns ss n (h :: need) rest d (gs ++ [{ hs := [h], rs := [i] }]) ref
      | none => groupRuns ss n need rest d gs (ref ++ [i])
    else
      let g : JoinGroup := { hs := (ms.flatMap (fun g => g.hs) ++ l.js).eraseDups, rs := ms.flatMap (fun g => g.rs) ++ [i] }
      groupRuns ss n need rest d (gs.filter (fun g => !hit g) ++ [g]) ref

/-- The owners that JOIN notices have named merge with the line (R315). -/
def groupJoins (d : Dev) (ss : Nat) (gs : List JoinGroup) : List JoinGroup :=
  d.trk.joins.foldl (fun gs j =>
    match resolve d j.1, resolve d j.2 with
    | some a, some b =>
      if ((coilAt d a).getD {}).station = ss ∧ a ≠ b then
        let hit (g : JoinGroup) : Bool := g.hs.contains a || g.hs.contains b
        let ms := gs.filter hit
        gs.filter (fun g => !hit g) ++
          [{ hs := (ms.flatMap (fun g => g.hs) ++ [a, b]).eraseDups, rs := (ms.flatMap (fun g => g.rs)) }]
      else gs
    | _, _ => gs) gs

/-- The cut test of a coil that runs of line `n` join, the first from `a` to `b` (R288, R294, R313, R314). -/
def cutTest (m : Mem) (f : Tbl Word) (n h : Nat) (r : Run) (a : Dev × List TrkRec) : Dev × List TrkRec :=
  match coilAt a.1 h with
  | none => a
  | some c =>
    if c.span < 65535 ∨ c.area = 0 ∨ waiting a.1 h then a
    else
      match ownerOf a.1 h with
      | some l =>
        let d := (sendSummary a.1 f l true (coilLast c) c).1
        (putCoil d h (restart c n r.start r.fin), a.2)
      | none =>
        let q := formRec m a.1 f .cont c n (originNode a.1)
        (putCoil q.1 h { restart c n r.start r.fin with named := true }, a.2 ++ [{ rank := 1, left := c.left, body := q.2, first := c.first, last := coilLast c }])

/-- Run `l` of line `n` is added to coil `h` (R299); `prev` tells that the run on its left is of the same coil. -/
def applyRun (d : Dev) (s : TrkStn) (n h : Nat) (l : LineRun) (same : Bool) : Dev :=
  match coilAt d h with
  | none => d
  | some c =>
    let cols := ((List.range (l.r.fin + 1 - l.r.start)).map (fun i => l.r.start + i)).filter (inWin s)
    let ov := (cols.filter (fun j =>
      let e := entAt d s j
      decide (e.handle ≠ noHandle) && decide (entAge n e = 1) && decide (resolve d e.handle = some h))).length
    let c := addRun c n l.r ov (l.adj && same)
    let lb := decide (l.r.start ≤ s.col)
    let rb' := decide (s.col + s.len ≤ l.r.fin + 1)
    let broke := (lb && rb d (ra pgTrk 0x164) 31) || (rb' && rb d (ra pgTrk 0x164) 30)
    putCoil d h { c with gapAdj := c.gapAdj || l.gap, seam := c.seam || lb || rb', split := c.split || broke,
                         cut := decide (c.span ≥ 65535) }

/-- The columns of a run take new frontier entries (R281, R292). -/
def writeRun (s : TrkStn) (n : Nat) (h : Option Nat) (r : Run) (d : Dev) : Dev :=
  let e : FrontEnt := match h with
    | some h => { line := n % 2 ^ 32, refused := false, handle := h }
    | none => { line := n % 2 ^ 32, refused := true, handle := noHandle }
  (((List.range (r.fin + 1 - r.start)).map (fun i => r.start + i)).filter (inWin s)).foldl (fun d j => setEnt d s j e) d

/-- Whether a coil may close at line `n`: its close line is reached, no tributary is awaited, and the neighbours'
fragments up to its close line have met the part's own (R287, R313, R314). -/
def closeReady (d : Dev) (n h : Nat) (c : Coil) : Bool :=
  let s := trkStn d c.station
  let cl := coilLast c + s.close
  decide (cl ≤ n) && !waiting d h &&
    !(d.trk.left.own.any (fun o => decide (o.station = c.station ∧ o.line ≤ cl ∧ c.left ≤ s.col))) &&
    !(d.trk.right.own.any (fun o => decide (o.station = c.station ∧ o.line ≤ cl ∧ s.col + s.len ≤ c.right + 1)))

/-- Close a coil: a tributary sends its summary, any other becomes a record (R287, R313). -/
def closeCoil (m : Mem) (f : Tbl Word) (n : Nat) (a : Dev × List TrkRec) (e : Nat × Coil) : Dev × List TrkRec :=
  match ownerOf a.1 e.1 with
  | some l =>
    let r := sendSummary a.1 f l false (coilLast e.2 + (trkStn a.1 e.2.station).close) e.2
    let d := setTrk r.1 { r.1.trk with links := r.1.trk.links.filter (fun k => decide (k ≠ l)) }
    (hset d e.1 (.closed r.2 e.2), a.2)
  | none =>
    let r := formRec m a.1 f (.full (jobCut a.1 e.2)) e.2 n (originNode a.1)
    (hset r.1 e.1 .free, a.2 ++ [{ rank := 2, left := e.2.left, body := r.2, first := e.2.first, last := coilLast e.2 }])

/-- Close every coil of a station that is due at line `n` (R287). -/
def closeDue (m : Mem) (f : Tbl Word) (ss n : Nat) (a : Dev × List TrkRec) : Dev × List TrkRec :=
  ((openCoils a.1 ss).filter (fun e => closeReady a.1 n e.1 e.2)).foldl (closeCoil m f n) a

/-- Coils held only by their seam close as soon as they may, outside a line's own commit (R314). -/
def closeHeld (m : Mem) (d : Dev) : Dev :=
  (List.range 8).foldl (fun d ss =>
    match (trkStn d ss).last with
    | none => d
    | some n =>
      let r := closeDue m (forceOf d (trkStn d ss).lastVer) ss n (d, [])
      pushRecs r.1 r.2) d

/-- Forwards whose absorbed coil no live entry can name any more are released after line `n` (R286); one that a
neighbour still knows an owner by is kept. -/
def releaseFwds (d : Dev) (ss n : Nat) : Dev :=
  d.trk.handles.foldl (fun d e =>
    match e.2 with
    | .forward _ st rel =>
      let held := d.trk.links.any (fun l => l.right && decide (resolve d e.1 = resolve d l.mine))
      if st = ss ∧ rel ≤ n ∧ !held then hset d e.1 .free else d
    | _ => d) d

/-- Coils not joined for PARK_LINES are parked at the commit of line `n` (R295). -/
def parkAged (d : Dev) (ss n lines : Nat) : Dev :=
  if lines = 0 then d
  else
    (openCoils d ss).foldl (fun d e =>
      match hget d e.1 with
      | .resident c =>
        if coilLast c + lines ≤ n ∧ !seamBusy d e.1 c then (parkCoil d e.1 c).getD d else d
      | _ => d) d

/-- Empty the entries of a station's window that lead to none of the open coils any more. -/
def dropEntries (d : Dev) (s : TrkStn) (gone : Nat → FrontEnt → Bool) : Dev :=
  d.trk.front.foldl (fun d e =>
    if s.base ≤ e.1 ∧ e.1 < s.base + s.len ∧ gone e.1 e.2 then
      setTrk d { d.trk with front := tset d.trk.front e.1 {} }
    else d) d

/-- Flush the coils of a station: a FLUSH notice on each side, then TRUNCATED records (R293, R319). -/
def flushStation (m : Mem) (f : Tbl Word) (d : Dev) (ss : Nat) : Dev :=
  let s := trkStn d ss
  let n := s.last.getD 0
  let d := [false, true].foldl (fun d side =>
    if s.on && sideEn f side then sendSeam d f side [seamW1 4 ss side, dpack [(0, 64, n)]] else d) d
  let cs := openCoils d ss
  let r := cs.foldl (fun a e =>
    let joined := (ownerOf a.1 e.1).isSome || waiting a.1 e.1
    let r := formRec m a.1 f (.full true) { e.2 with split := e.2.split || joined } n (originNode a.1)
    (r.1, a.2 ++ [({ rank := 2, left := e.2.left, body := r.2, first := e.2.first, last := coilLast e.2 } : TrkRec)])) (d, [])
  let d := pushRecs r.1 r.2
  let hs := cs.map (fun e => e.1)
  let d := setTrk d { d.trk with links := d.trk.links.filter (fun l => !(hs.any (fun h => resolve d l.mine = some h))) }
  let d := dropEntries d s (fun _ e => hs.any (fun h => resolve d e.handle = some h))
  let d := d.trk.handles.foldl (fun d e =>
    match e.2 with
    | .forward _ st _ => if st = ss then hset d e.1 .free else d
    | _ => d) d
  trkCounts (hs.foldl (fun d h => hset d h .free) d)

/-- Whether station `ss` is tracked under values in force `f`, and its registers (R321, R322). -/
def stnCfg (f : Tbl Word) (ss : Nat) (s : TrkStn) : TrkStn :=
  let a := ra pgTrk (0x200 + 0x20 * ss)
  { s with on := vb f (ra pgTrk 0x100) 31 && vb f a 31, conn8 := vb f a 30, close := vf f a 15 0, col := vf f (a + 8) 19 0,
           len := vf f (a + 12) 20 0, base := vf f (a + 16) 20 0 }

/-- What a committed change does at the station's first line `n` under it (R279, R282, R293). -/
def enterCfg (m : Mem) (d : Dev) (f : Tbl Word) (ss n ver : Nat) : Dev :=
  let s := trkStn d ss
  let t := stnCfg f ss s
  let win := decide (t.col ≠ s.col ∨ t.len ≠ s.len ∨ t.base ≠ s.base)
  let d := if s.on && (!t.on || win || decide (t.conn8 ≠ s.conn8)) then flushStation m f d ss else d
  let d := if t.on && (win || !s.on) then dropEntries d t (fun _ _ => true) else d
  let fl := if s.on && t.on && decide (s.close < t.close) then n - s.close else s.floor
  setStn d ss { t with lastVer := ver, floor := if t.on && !s.on then 0 else fl }

/-- Note the columns unseen on line `n` (R277, R291), and forget what no open coil can meet. -/
def noteUnseen (d : Dev) (ss n : Nat) (us : List Unseen) : Dev :=
  let s := trkStn d ss
  let old := ((openCoils d ss).map (fun e => e.2.first)).foldl Nat.min n
  let keep := s.unseen.filter (fun u => decide (old ≤ u.lastNo + 65535))
  let add := us.foldl (fun l u =>
    match l.find? (fun v => decide (v.lo = u.lo ∧ v.hi = u.hi ∧ v.nb = u.nb ∧ v.lastNo + 1 = u.firstNo)) with
    | some v => l.map (fun x => if x = v then { v with lastNo := u.lastNo } else x)
    | none => l ++ [u]) keep
  setStn d ss { s with unseen := add }

end Sys2Proof.Machine
end

