-- ==== Sys2Proof/Machine/Seam.lean ====
section
/-!
DEFINITION. Shapes that cross parts, the labelling of a line, and the tracker's other commands (R274 to R321).
-/

namespace Sys2Proof.Machine

/-- LAG: the most lines of one station whose fragments are awaited (R321). -/
def seamLag (d : Dev) : Dev :=
  let n (right : Bool) (ss : Nat) : Nat := ((sideOf d right).own.filter (fun o => decide (o.station = ss))).length
  poke d (ra pgTrk 0x164) 15 0 ((List.range 8).foldl (fun a ss => Nat.max a (Nat.max (n false ss) (n true ss))) 0)

/-- Mark the open coils that meet a condition as split (R318). -/
def splitWhere (d : Dev) (p : Nat → Coil → Bool) : Dev :=
  (d.trk.handles.filterMap (fun e => (openOf e.2).map (fun c => (e.1, c)))).foldl (fun d e =>
    if p e.1 e.2 then putCoil d e.1 { e.2 with split := true } else d) d

/-- A summary never acknowledged becomes its sender's record (R318). -/
def orphanRec (m : Mem) (d : Dev) (s : SeamSum) : Dev :=
  let k : RecKind := if s.cutS then .cont else .full false
  let r := formRec m d (forceOf d s.ver) k { s.c with id := s.coil, split := true } s.line s.node
  pushCoil r.1 r.2 s.c.first (coilLast s.c)

/-- The side breaks (R318). -/
def breakSide (m : Mem) (d : Dev) (right : Bool) : Dev :=
  if rb d (ra pgTrk 0x164) (if right then 30 else 31) then d
  else
    let d := evt (pokeBit d (ra pgTrk 0x164) (if right then 30 else 31) true) pgTrk 4
    let ls := d.trk.links.filter (fun l => decide (l.right = right))
    let d := splitWhere d (fun h c =>
      let s := trkStn d c.station
      ls.any (fun l => decide (resolve d l.mine = some h)) ||
        (if right then decide (s.col + s.len ≤ c.right + 1) else decide (c.left ≤ s.col)))
    let d := if right then d
      else (d.trk.handles.filterMap (fun e => (openOf e.2).map (fun c => (e.1, c)))).foldl (fun d e =>
        if e.2.trib then putCoil d e.1 { e.2 with trib := false } else d) d
    let j := (sideOf d right).journal
    let d := setTrk d { d.trk with links := d.trk.links.filter (fun l => decide (l.right ≠ right)) }
    let d := setSide d right { (sideOf d right) with own := [], nb := [], journal := [] }
    let d := j.foldl (orphanRec m) d
    let d := if right then d
      else d.trk.handles.foldl (fun d e =>
        match e.2 with
        | .closed _ _ => hset d e.1 .free
        | _ => d) d
    trkCounts (seamLag (closeHeld m d))

/-- Whether the entry of a fragment is live for its line (R280, R311). -/
def fragLive (o : SeamFrag) : Bool :=
  decide (o.handle ≠ noHandle ∧ (o.line + 2 ^ 32 - o.entLine % 2 ^ 32) % 2 ^ 32 ≤ o.close)

/-- Whether the shares two facing fragments name are joined on their line (R311). -/
def fragsJoin (o b : SeamFrag) : Bool :=
  decide (o.handle ≠ noHandle ∧ b.handle ≠ noHandle) &&
    (if o.conn8 then (o.covered && fragLive b) || (b.covered && fragLive o) else o.covered && b.covered)

/-- Two shares are joined: on the right this part's share owns the shape, on the left the neighbour's does
(R312, R314 to R316). -/
def joinShares (m : Mem) (d : Dev) (f : Tbl Word) (right : Bool) (o b : SeamFrag) : Dev :=
  match resolve d o.handle with
  | none => d
  | some h =>
    let d := unparkCoil d [] h
    let c := (coilAt d h).getD {}
    let d := putCoil d h { c with seam := true }
    if right then
      let has := d.trk.links.any (fun l => l.right && decide (l.theirs = b.handle) && decide (resolve d l.mine = some h))
      let d := if has then d
        else setTrk d { d.trk with links := d.trk.links ++ [{ right := true, mine := h, theirs := b.handle }] }
      let c := (coilAt d h).getD {}
      if o.covered && b.covered then putCoil d h { c with perim := c.perim - 2 } else d
    else
      let l : SeamLink := { right := false, mine := h, theirs := b.handle, coil := b.coil, node := b.node }
      match ownerOf d h with
      | none => becomeTrib m d f h o.line l
      | some k =>
        if k.theirs = l.theirs then
          setTrk d { d.trk with links := d.trk.links.map (fun x => if x = k then { k with coil := b.coil, node := b.node } else x) }
        else sendSeam d f false [seamW1 1 o.station false, dpack [(0, 64, o.line)],
          dpack [(21, 21, k.theirs), (0, 21, l.theirs)]]

/-- The neighbour's fragment `b` meets the part's own `o` for the same line (R309, R311, R317). -/
def meetFrags (m : Mem) (d : Dev) (right : Bool) (o b : SeamFrag) : Dev :=
  let f := forceOf d (trkStn d o.station).lastVer
  let s := sideOf d right
  let d := setSide d right { s with own := s.own.filter (fun x => !decide (x.station = o.station ∧ x.line = o.line)),
                                    nb := s.nb.filter (fun x => !decide (x.station = o.station ∧ x.line ≤ o.line)) }
  let adj := if right then decide (b.col = o.col + 1) else decide (b.col + 1 = o.col)
  if !adj || decide (b.conn8 ≠ o.conn8) || decide (b.close ≠ o.close) then breakSide m d right
  else
    let d := if b.unseen then
        noteUnseen d o.station o.line [{ lo := b.col, hi := b.col, firstNo := o.line, lastNo := o.line, nb := true }]
      else d
    if fragsJoin o b then joinShares m d f right o b else d

/-- The fragment of a station's boundary column on a side after line `n` (R310). -/
def ownFrag (d : Dev) (ss n : Nat) (right : Bool) (runs : List Run) (unseen : List Unseen) : SeamFrag :=
  let s := trkStn d ss
  let j := if right then s.col + s.len - 1 else s.col
  let e := entAt d s j
  let h := if e.handle = noHandle then none else resolve d e.handle
  let c := match h with | some h => (coilAt d h).getD {} | none => {}
  let own := match h with | some h => ownerOf d h | none => none
  { station := ss, line := n, covered := runs.any (fun r => decide (r.start ≤ j ∧ j ≤ r.fin)),
    unseen := unseen.any (fun u => decide (u.lo ≤ j ∧ j ≤ u.hi)), conn8 := s.conn8, close := s.close, col := j,
    handle := h.getD noHandle, entLine := e.line,
    coil := match own with | some l => l.coil | none => c.id,
    node := match own with | some l => l.node | none => originNode d }

/-- The words of a LINE fragment (R320). -/
def fragWords (d : Dev) (o : SeamFrag) (right : Bool) : List Dword :=
  [seamW1 0 o.station right, dpack [(0, 64, o.line)],
   dpack [(63, 1, o.covered.toNat), (62, 1, o.unseen.toNat), (61, 1, o.conn8.toNat), (45, 16, o.close),
     (25, 20, o.col), (0, 21, o.handle)],
   dpack [(32, 32, o.entLine), (0, 32, (sideOf d right).rxHigh)],
   dpack [(32, 32, o.coil), (26, 6, o.node)]]

/-- A received LINE fragment (R320). -/
def fragOf (ws : List Dword) : SeamFrag :=
  let w := dwAt ws
  { station := dfld (w 0) 59 57, line := (w 1).toNat, covered := (w 2).getLsbD 63, unseen := (w 2).getLsbD 62,
    conn8 := (w 2).getLsbD 61, close := dfld (w 2) 60 45, col := dfld (w 2) 44 25, handle := dfld (w 2) 20 0,
    entLine := dfld (w 3) 63 32, coil := dfld (w 4) 63 32, node := dfld (w 4) 31 26 }

/-- Send the fragments of a station's line and meet those the neighbours sent ahead (R310). -/
def sendFrags (m : Mem) (d : Dev) (f : Tbl Word) (ss n : Nat) (runs : List Run) (us : List Unseen) : Dev :=
  [false, true].foldl (fun d right =>
    if sideEn f right then
      let o := ownFrag d ss n right runs us
      let d := sendSeam d f right (fragWords d o right)
      if sideUp d f right then
        let s := sideOf d right
        let d := setSide d right { s with own := s.own ++ [o] }
        match s.nb.find? (fun b => decide (b.station = ss ∧ b.line = n)) with
        | some b => meetFrags m d right o b
        | none => d
      else d
    else d) d

/-- The line a station's rods would label next: its number, the values in force for it, and its markers, when
every enabled context has sent one (R274). -/
def nextTracked (d : Dev) (ss : Nat) : Option (Nat × Tbl Word × List Marker) :=
  let ms := d.rods.filter (fun k => decide (k.station = ss))
  match ms with
  | [] => none
  | k :: ks =>
    let n := (ks.map (fun x => x.n)).foldl Nat.min k.n
    let line := ms.filter (fun x => decide (x.n = n))
    let f := forceOf d ((line.map (fun x => x.stamp.ver)).foldl Nat.max 0)
    if (camsOf f ss).all (fun c => line.any (fun x => decide (x.wale = c.1 ∧ x.ctx = c.2))) then
      some (n, f, isort (fun a b => decide (a.ownLo ≤ b.ownLo)) line)
    else none

/-- Whether a context is unseen on its line (R276, R277). -/
def unseenMk (d : Dev) (k : Marker) : Bool :=
  k.void || k.learn || k.satd || decide (k.count ≠ k.runs.length) || d.iso.contains (k.wale / 4)

/-- The runs of a line, in ascending START (R275). -/
def lineRuns (d : Dev) (ks : List Marker) : List Run :=
  isort (fun a b => decide (a.start ≤ b.start)) ((ks.filter (fun k => !unseenMk d k)).flatMap (fun k => k.runs))

/-- Runs that do not match their marker are reported (R276). -/
def runErrors (d : Dev) (ss n : Nat) (ks : List Marker) : Dev :=
  ks.foldl (fun d k =>
    let bad := decide (k.count ≠ k.runs.length)
    let d := if bad then evt (raise (count d (ra pgTrk 0x140)) pgTrk 0x30 2 3 (2 * k.wale + k.ctx)) pgTrk 1 else d
    let key := 2 * k.wale + k.ctx
    let r := mergeGaps d (tget (fun _ => []) d.trk.gaps key) ss n k.stamp
      (if bad then [{ cause := 0x14, left := k.ownLo, width := k.ownHi + 1 - k.ownLo, cls := gapCls k.wale k.ctx }] else [])
    setTrk r.1 { r.1.trk with gaps := tput (fun _ => []) r.1.trk.gaps key r.2 }) d

/-- Refused runs are counted and their gaps merged (R292). -/
def refuseRuns (d : Dev) (ss n : Nat) (st : Stamp) (rs : List Run) : Dev :=
  let d := rs.foldl (fun d _ => evt (count d (ra pgTrk 0x13C)) pgTrk 0) d
  let r := mergeGaps d (tget (fun _ => []) d.trk.gaps (32 + ss)) ss n st
    (rs.map (fun r => { cause := 0x15, left := r.start, width := r.fin + 1 - r.start }))
  setTrk r.1 { r.1.trk with gaps := tput (fun _ => []) r.1.trk.gaps (32 + ss) r.2 }

/-- Label the runs of line `n` and commit it (R280 to R288, R294). -/
def labelLine (m : Mem) (d : Dev) (f : Tbl Word) (ss n : Nat) (st : Stamp) (runs : List Run) (us : List Unseen) : Dev :=
  let s := trkStn d ss
  let ls := reachLine d s n runs
  let need := (ls.flatMap (fun l => l.js)).eraseDups
  let g := groupRuns ss n need ls.zipIdx d [] []
  let d := refuseRuns g.1 ss n st (g.2.2.filterMap (fun i => runs[i]?))
  let groups := groupJoins d ss g.2.1
  let d := setTrk d { d.trk with joins := d.trk.joins.filter (fun j =>
    match resolve d j.1 with
    | some a => !decide (((coilAt d a).getD {}).station = ss)
    | none => false) }
  let merged := groups.foldl (fun (a : (Dev × List TrkRec) × List (Nat × JoinGroup)) jg =>
    let r := mergeGroup m f n a.1 jg
    match r.2 with
    | some h => (r.1, a.2 ++ [(h, jg)])
    | none => (r.1, a.2)) ((d, []), [])
  let a := merged.2.foldl (fun a hg =>
    match isort (fun x y => decide (x.start ≤ y.start)) (hg.2.rs.filterMap (fun i => runs[i]?)) with
    | [] => a
    | r :: _ => cutTest m f n hg.1 r a) merged.1
  let coilOfRun (i : Nat) : Option Nat := (merged.2.find? (fun hg => hg.2.rs.contains i)).map (fun hg => hg.1)
  let d := ls.zipIdx.foldl (fun d li =>
    match coilOfRun li.2 with
    | some h => applyRun d s n h li.1 (decide (1 ≤ li.2) && decide (coilOfRun (li.2 - 1) = some h))
    | none => d) a.1
  let d := runs.zipIdx.foldl (fun d ri => writeRun s n (coilOfRun ri.2) ri.1 d) d
  let d := sendFrags m d f ss n runs us
  let r := closeDue m f ss n (d, a.2)
  let d := pushRecs r.1 r.2
  let d := releaseFwds d ss n
  let d := parkAged d ss n (vf f (ra pgTrk (0x204 + 0x20 * ss)) 15 0)
  trkCounts (seamLag d)

/-- The coils of a line's reach that are parked: labelling stalls on them (R295). -/
def stalledOn (d : Dev) (ss : Nat) (f : Tbl Word) (n : Nat) (ks : List Marker) : List Nat :=
  let s := stnCfg f ss (trkStn d ss)
  let hs := (reachLine d s n (lineRuns d ks)).flatMap (fun l => l.js) ++
    d.trk.joins.flatMap (fun j => [j.1, j.2].filterMap (resolve d))
  hs.filter (fun h => match hget d h with | .parked _ _ => true | _ => false)

/-- The tracker labels and commits the next line of a station, unless it stalls on a parked coil (R274). -/
def trackLine (m : Mem) (d : Dev) (ss : Nat) : Dev :=
  match nextTracked d ss with
  | none => d
  | some (n, f, ks) =>
    let st := (ks.head?.map (fun k => k.stamp)).getD {}
    let t := stnCfg f ss (trkStn d ss)
    if t.on ∧ stalledOn d ss f n ks ≠ [] then d
    else
      let runs := lineRuns d ks
      let us := (ks.filter (unseenMk d)).map (fun k => ({ lo := k.ownLo, hi := k.ownHi, firstNo := n, lastNo := n } : Unseen))
      let d := setTrk d { d.trk with ring := tset d.trk.ring (n % 262144) { st with sysLine := n } }
      let d := enterCfg m d f ss n st.ver
      let d := { d with rods := d.rods.filter (fun k => !decide (k.station = ss ∧ k.n = n)) }
      let d := runErrors d ss n ks
      let d := setStn d ss { (trkStn d ss) with last := some n }
      if t.on then labelLine m (noteUnseen d ss n us) f ss n st runs us else d

/-- The stations whose next line stalls on coil `h` (R295). -/
def needsCoil (d : Dev) (h : Nat) : Option Nat :=
  (List.range 8).find? (fun ss =>
    match nextTracked d ss with
    | none => false
    | some (n, f, ks) => (stalledOn d ss f n ks).contains h)

/-- A parked coil that cannot be read is lost: its columns become a gap (R297). -/
def loseCoil (d : Dev) (ss n h : Nat) : Dev :=
  let s := trkStn d ss
  let es := d.trk.front.filter (fun e =>
    decide (s.base ≤ e.1 ∧ e.1 < s.base + s.len ∧ e.2.handle ≠ noHandle) && decide (resolve d e.2.handle = some h))
  let cols := es.map (fun e => e.1 - s.base + s.col)
  let lo := cols.foldl Nat.min (cols.headD 0)
  let hi := cols.foldl Nat.max 0
  let old := (es.map (fun e => entAge n e.2)).foldl Nat.max 0
  let g : GapRun := { cause := 0x16, left := lo, width := hi + 1 - lo, station := ss, firstNo := n - old, lastNo := n,
                      first := ringAt d (n - old), last := ringAt d n }
  let d := closeGap d g
  let d := dropEntries d s (fun _ e => decide (resolve d e.handle = some h))
  let gone := d.trk.handles.filter (fun e => isFwd e && decide (resolve d e.1 = some h))
  let d := gone.foldl (fun d e => hset d e.1 .free) (hset d h .free)
  let d := setTrk d { d.trk with links := d.trk.links.filter (fun l => decide (l.mine ≠ h)) }
  trkCounts (evt (raise (count d (ra pgTrk 0x144)) pgTrk 0x31 2 4 h) pgTrk 2)

/-- A parked coil that a run needs is read back, or lost (R295, R297). -/
def unparkNeeded (d : Dev) (h : Nat) (bad : Bool) : Dev :=
  match needsCoil d h with
  | none => d
  | some ss =>
    match nextTracked d ss with
    | none => d
    | some (n, _, ks) =>
      let st := (ks.head?.map (fun k => k.stamp)).getD {}
      if bad then
        loseCoil (setTrk d { d.trk with ring := tset d.trk.ring (n % 262144) { st with sysLine := n } }) ss n h
      else trkCounts (unparkCoil d [] h)

/-- Flush every open coil (R293). -/
def flushAll (m : Mem) (d : Dev) : Dev :=
  (List.range 8).foldl (fun d ss => flushStation m (forceOf d d.ver) d ss) d

/-- The side a received seam message concerns, when it comes from the neighbour there (R309, R320). -/
def seamSide (d : Dev) (src : Nat) (ws : List Dword) : Option Bool :=
  let right := !(dwAt ws 0).getLsbD 56
  if sideUp d d.force right && decide (sideNode d.force right = src) then some right else none

/-- A neighbour's LINE fragment arrives (R310, R311, R313). -/
def fragArrive (m : Mem) (d : Dev) (src : Nat) (ws : List Dword) : Dev :=
  match seamSide d src ws with
  | none => d
  | some right =>
    let b := fragOf ws
    let ack := dfld (dwAt ws 3) 31 0
    let s := sideOf d right
    let done (q : Nat) : Bool := decide ((ack + 2 ^ 32 - q) % 2 ^ 32 < 2 ^ 31)
    let d := setSide d right { s with journal := s.journal.filter (fun e => !done e.seq) }
    let d := if right then d
      else d.trk.handles.foldl (fun d e =>
        match e.2 with
        | .closed q _ => if done q then hset d e.1 .free else d
        | _ => d) d
    let s := sideOf d right
    let d := match s.own.find? (fun o => decide (o.station = b.station ∧ o.line = b.line)) with
      | some o => meetFrags m d right o b
      | none =>
        if (match (trkStn d b.station).last with | some n => decide (n < b.line) | none => true) then
          setSide d right { s with nb := s.nb ++ [b] }
        else d
    trkCounts (seamLag (closeHeld m d))

/-- A JOIN notice arrives: the owner shares it names merge at the next commit (R315). Where two tributaries
became one, one summary fewer is expected. -/
def joinArrive (d : Dev) (src : Nat) (ws : List Dword) : Dev :=
  match seamSide d src ws with
  | some true =>
    let a := dfld (dwAt ws 2) 41 21
    let b := dfld (dwAt ws 2) 20 0
    match resolve d a, resolve d b with
    | some p, some q =>
      let la := d.trk.links.filter (fun l => l.right && decide (resolve d l.mine = some p))
      let lb := d.trk.links.filter (fun l => l.right && decide (resolve d l.mine = some q))
      let drop : Option SeamLink := match lb.find? (fun l => la.any (fun k => decide (k.theirs = l.theirs))) with
        | some l => some l
        | none => if la.isEmpty then none else lb.head?
      let keep : List SeamLink := d.trk.links.filter (fun l : SeamLink => some l != drop)
      if p = q then d else setTrk d { d.trk with joins := d.trk.joins ++ [(a, b)], links := keep }
    | _, _ => d
  | _ => d

/-- A tributary's summary arrives and the owner folds it in (R313, R314, R316). -/
def sumArrive (m : Mem) (d : Dev) (src : Nat) (ws : List Dword) (cutS : Bool) : Dev :=
  match seamSide d src ws with
  | some true =>
    let w3 := dwAt ws 2
    let seq := dfld w3 63 32
    let d := setTrk d { d.trk with right := { d.trk.right with rxHigh := seq } }
    match resolve d (dfld w3 20 0) with
    | none => d
    | some h =>
      let d := unparkCoil d [] h
      let c := (coilAt d h).getD {}
      let n := (trkStn d c.station).last.getD 0
      let q := coilOf (ws.drop 3) c.station n
      let p := { foldCoil c { q with seam := false, cut := false } with cut := c.cut }
      let f := forceOf d (trkStn d c.station).lastVer
      let d := putCoil d h { p with named := c.named || q.named }
      let d := if q.named && !c.named && c.trib then
          match ownerOf d h with
          | some l => absorbInto m d f { newCoil c.id n c.left c.right c.station with split := p.split } n l.coil l.node
          | none => d
        else d
      if cutS then trkCounts d
      else
        let mine := d.trk.links.filter (fun l => l.right && decide (resolve d l.mine = some h))
        let k := if mine.length ≤ 1 then 1 else 1 + Config.closesFor seq % mine.length
        let drop := mine.take k
        let d := setTrk d { d.trk with links := d.trk.links.filter (fun l => !drop.contains l) }
        trkCounts (seamLag (closeHeld m d))
  | _ => d

/-- A FLUSH notice arrives and the side breaks (R318, R319). -/
def seamFlushArrive (m : Mem) (d : Dev) (src : Nat) (ws : List Dword) : Dev :=
  match seamSide d src ws with
  | some right => breakSide m d right
  | none => d

/-- Whether a fragment is overdue on a side: not arrived by the commit of its line plus SEAM_WAIT (R318). -/
def overdue (d : Dev) (right : Bool) : Bool :=
  let wait := ff d (ra pgTrk 0x160) 15 0
  (sideOf d right).own.any (fun o =>
    match (trkStn d o.station).last with
    | some n => decide (o.line + wait ≤ n)
    | none => false)

/-- Writing 1 to a BROKEN bit re-arms its side (R318). -/
def rearm (d : Dev) (right : Bool) : Dev :=
  if rb d (ra pgTrk 0x164) (if right then 30 else 31) then
    setSide (pokeBit d (ra pgTrk 0x164) (if right then 30 else 31) false) right
      { (sideOf d right) with own := [], nb := [] }
  else d

/-- The scrubber empties entries older than 2^30 lines (R282). -/
def scrub (d : Dev) (ss : Nat) : Dev :=
  match (trkStn d ss).last with
  | none => d
  | some n => dropEntries d (trkStn d ss) (fun _ e => decide (e.handle ≠ noHandle ∨ e.refused) && decide (entAge n e > 2 ^ 30))

/-- The context words shown for a handle, and its KIND (R321). -/
def peekOf (d : Dev) (h : Nat) : Nat × Option (List Dword) :=
  match hget d h with
  | .free => (0, none)
  | .resident c => (1, some (coilWords c))
  | .closed _ c => (1, some (coilWords c))
  | .parked _ c => (2, some (coilWords c))
  | .forward _ _ _ => (3, none)

/-- PEEK copies the context of a handle into TRK_PEEK_D0 to D15 (R321). -/
def peekCoil (d : Dev) (h : Nat) : Dev :=
  let p := peekOf d h
  let e := setReg d (ra pgTrk 0x180) (wpack [(30, 1, 1), (28, 2, p.1), (0, 21, h)])
  let ws : List Word := match p.2 with
    | none => (List.range 16).map (Config.voidContext d.cycle h)
    | some ws => ws.flatMap (fun (w : Dword) => [w.setWidth 32, (w >>> 32).setWidth 32])
  ws.zipIdx.foldl (fun (e : Dev) (w : Word × Nat) => setReg e (ra pgTrk (0x190 + 4 * w.2)) w.1) e

end Sys2Proof.Machine
end

