-- ==== Sys2Proof/Machine/Hist.lean ====
section
/-!
DEFINITION. The history ring: chunks written and read back, the decoder's errors, and the held lines its readers
use (R371 to R393).
-/

namespace Sys2Proof.Machine

/-- The control-clock edges of `n` microseconds (R62). -/
def usCycles (n : Nat) : Nat := 400 * n

/-- The line flags of a stamp as a byte (R52, DESIGN CHOICE, log 18). -/
def stampFlags (s : Stamp) : Nat :=
  s.short.toNat + 2 * s.long.toNat + 4 * s.gap.toNat + 8 * s.late.toNat + 16 * s.note.toNat

/-- Bytes of four fields of one byte each, the first lowest. -/
def fourBytes (xs : List Nat) : Nat := ofLeBytes (xs.map (BitVec.ofNat 8))

/-- The chunk header up to its CRC (R377). -/
def chunkHead (f : Tbl Word) (w x total : Nat) (rows : List SLine) : List Byte :=
  let r := rows.headD {}
  let st := rows.map (fun l => l.stamp)
  let valid := rows.zipIdx.foldl (fun a l => a + (if l.1.gap then 0 else 2 ^ l.2)) 0
  let h := leBytes 8 r.stamp.camLine ++ leBytes 8 r.stamp.sysLine ++
    leBytes 8 (w + 16 * x + 32 * ((camStation f w x).getD 0) + 256 * valid + 2 ^ 32 * total) ++ leBytes 8 r.base ++
    st.flatMap (fun s => leBytes 8 (sf 64 s.web)) ++ st.flatMap (fun s => leBytes 8 (recW6 s.time).toNat) ++
    leBytes 8 (fourBytes (st.map (fun s => s.step)) + 2 ^ 32 * fourBytes (st.map (fun s => s.epoch))) ++
    leBytes 8 (fourBytes (st.map stampFlags)) ++ leBytes 8 0
  h ++ leBytes 8 (crc32c h)

/-- The container row of a stored line (R387). -/
def rowOf (l : SLine) : CRow := newRow l.planes l.mask l.sat

/-- A history ring as its registers place it: base and size in bytes, index base, entries (R376, R378). -/
structure RingCfg where
  base : Nat
  size : Nat
  idx : Nat
  entries : Nat
  deriving DecidableEq, Repr

/-- The ring of history context `nn` under values `f` (R406). -/
def ringCfg (f : Tbl Word) (nn : Nat) : RingCfg where
  base := vf f (histA nn 4) 16 0 * 1048576
  size := vf f (histA nn 8) 17 0 * 1048576
  idx := vf f (histA nn 12) 16 0 * 1048576
  entries := 2 ^ vf f (histA nn 12) 28 24

/-- An index entry (R378). -/
def indexEntry (no off len : Nat) (raw dropped : Bool) : List Byte :=
  leBytes 8 no ++ leBytes 8 (off + 2 ^ 32 * len + 2 ^ 52 * raw.toNat + 2 ^ 53 * dropped.toNat)

/-- RATIO over the last 64 chunks, in 8.8 (R406). -/
def ratioOf (rs : List (Nat × Nat)) : Nat :=
  let s := rs.foldl (fun a r => a + r.2) 0
  if s = 0 then 0 else min 0xFFFF (rs.foldl (fun a r => a + r.1) 0 * 256 / s)

/-- Whether chunks are stored raw now (R384). -/
def rawOnly (d : Dev) : Bool := rb d (ra pgHist 0x100) 31 || decide (2 ≤ throttleStep d)

/-- THROTTLE_RAW and JOBS_SUSPENDED follow the throttle step and FORCE_RAW (R384, R405). -/
def histStat (d : Dev) : Dev :=
  let a := ra pgHist 0x104
  let d := pokeBit d a 31 (rawOnly d)
  let d := pokeBit d a 30 (decide (1 ≤ throttleStep d) && !(runningJobs d).isEmpty)
  poke d a 2 0 (runningJobs d).length

/-- A chunk's index entry is written, and the chunks whose entry or bytes it takes are dropped from those held
(R378, R379). -/
def indexChunk (d : Dev) (m : Mem) (w x : Nat) (c : RingCfg) (no off len : Nat) (raw dropped : Bool) : Dev × Mem :=
  let s := wst d w x
  let lo := c.base + 64 * off
  let hit (h : HeldChunk) : Bool :=
    decide (h.no + c.entries ≤ no) || (decide (0 < len) && decide (h.place < lo + 64 * len ∧ lo < h.place + h.len))
  let held := match (s.hBusy.filter hit).map (fun h => h.no + 1) with
    | [] => if s.hHeld = s.hNext then no else s.hHeld
    | l => l.foldl Nat.max s.hHeld
  let s := { s with hBusy := s.hBusy.filter (fun h => decide (held ≤ h.no)), hHeld := Nat.max held (no + 1 - c.entries),
                    hNext := no + 1 }
  let d := setWst d w x s
  (d, { m with lpx := mwrite (lpxDef m) m.lpx (c.idx + 16 * (no % c.entries)) (indexEntry no off len raw dropped) })

/-- The first waiting chunk of history context `nn` is written, or dropped where the write buffer has no room
(R376 to R384). -/
def chunkWrite (d : Dev) (m : Mem) (nn : Nat) (room : Bool) : Dev × Mem :=
  let w := nn / 2
  let x := nn % 2
  let s := wst d w x
  match s.chunks with
  | [] => (d, m)
  | ch :: rest =>
    let f := forceOf d ch.ver
    let c := ringCfg f nn
    let d := setWst d w x { s with chunks := rest }
    let d := if ch.bypass then count d (histA nn 0x24) else d
    if !room then
      let d := evt (count d (histA nn 0x28)) pgHist 0
      indexChunk (raiseOpen d pgHist 0x32 1 4) m w x c ch.no 0 0 false true
    else
      let r := ch.rows.headD {}
      let cfg := vw f (histA nn 0)
      let k := container 2 (fld cfg 29 28) r.bits r.mask.length (ch.rows.map rowOf) (bitOf cfg 30 && !ch.bypass && !rawOnly d)
      let len := (128 + k.1.length + 63) / 64
      let off := if 64 * (s.hPtr + len) > c.size then 0 else s.hPtr
      let q := indexChunk d m w x c ch.no off len k.2 false
      let d := if k.2 then count q.1 (histA nn 0x20) else q.1
      let orig := ofLeBytes ((k.1.drop 12).take 4)
      let s := wst d w x
      let h : HeldChunk := { no := ch.no, place := c.base + 64 * off, len := 64 * len, feats := r.feats,
                             rows := ch.rows.map (fun l => (l.stamp, l.gap)) }
      let ratio := ((orig, 64 * len) :: s.ratio).take 64
      let d := setWst d w x { s with hBusy := s.hBusy ++ [h], hPtr := off + len, ratio := ratio }
      let d := poke d (histA nn 0x2C) 15 0 (ratioOf ratio)
      let bytes := chunkHead f w x (64 * len) ch.rows ++ k.1
      (d, { q.2 with lpx := mwrite (lpxDef q.2) q.2.lpx h.place (bytes ++ List.replicate (64 * len - bytes.length) 0) })

/-- Read a held chunk back as stored lines, or the decoder's error (R377, R390). -/
def readChunk (m : Mem) (h : HeldChunk) : Except DecErr (List SLine) :=
  let bs := mread (lpxDef m) m.lpx h.place h.len
  let hd := bs.take 120
  if ofLeBytes ((bs.drop 120).take 4) ≠ crc32c hd ∨ ofLeBytes (hd.take 8) ≠ 4 * h.no then .error .headerFault
  else
    match decodeContainer (bs.drop 128) (h.len - 128) with
    | .error e => .error e
    | .ok (k, rows) =>
      .ok ((rows.zip h.rows).map (fun r =>
        { stamp := r.2.1, gap := r.2.2, base := ofLeBytes ((hd.drop 24).take 8) % 2 ^ 20, bits := k.b, feats := h.feats,
          mask := r.1.mask, sat := r.1.sat, planes := r.1.planes }))

/-- A decoder error is counted and raised (R391). -/
def decError (d : Dev) (e : DecErr) : Dev := evt (count d (ra pgHist (0x10C + 4 * e.code))) pgHist 1

/-- The held chunk with camera line `n` of a context. -/
def chunkOf (s : WaleSt) (n : Nat) : Option HeldChunk := s.hBusy.find? (fun h => decide (h.no = n / 4))

/-- A line lost in read-back: it has a place but no samples (R222). -/
def lostLine (n : Nat) : SLine := { stamp := { camLine := n }, gap := true, bits := 0 }

/-- The next line of the ring route is read back (R222, R391). -/
def readBack (d : Dev) (m : Mem) (w x : Nat) : Dev :=
  let s := wst d w x
  match s.stag.getLast? with
  | none => d
  | some new =>
    let f := forceOf d new.stamp.ver
    let hold := vf f (cx (pgGeom w) x 0x118) 19 0
    let top := new.stamp.camLine - hold
    let n := match s.window.getLast? with
      | some l => l.stamp.camLine + 1
      | none => top
    if !vb f (cx (pgGeom w) x 0x100) 21 ∨ new.stamp.camLine < hold ∨ n > top then d
    else
      let got : Dev × SLine := match chunkOf s n with
        | none => (d, lostLine n)
        | some h =>
          match readChunk m h with
          | .error e => (evt (decError d e) (pgGeom w) (4 + x), lostLine n)
          | .ok rows => (d, (rows.find? (fun l => decide (l.stamp.camLine = n))).getD (lostLine n))
      let s := wst got.1 w x
      let win := s.window ++ [got.2]
      let ovr := win.length - 16
      setWst got.1 w x { s with window := win.drop ovr, winDropped := s.winDropped + ovr }

/-- The sample of a stored line at a system column in plane `pl` (0 Y, k + 1 feature plane k), restored (R220). -/
def storedAt (l : SLine) (pl col : Nat) : Option Px :=
  if col < l.base ∨ col ≥ l.base + l.mask.length then none
  else
    let i := col - l.base
    let idx := if pl = 0 then some 0 else (l.feats.idxOf? (pl - 1)).map (· + 1)
    match idx with
    | none => none
    | some k => some { v := restore l.bits ((l.planes.getD k []).getD i 0), m := l.mask.getD i true, s := l.sat.getD i false }

/-- The stamps of a context's held lines, oldest first. -/
def heldStamps (s : WaleSt) : List Stamp :=
  (s.hBusy.flatMap (fun h => h.rows)).filterMap (fun r => if r.2 then none else some r.1)

/-- X_n: the web position of system line `n`, from the stamp ring or from a held row of the reference camera
(R393). -/
def xOf (d : Dev) (n : Nat) : Option Int :=
  let r := ringAt d n
  if r.sysLine = n ∧ d.trk.ring.any (fun e => decide (e.1 = n % 262144)) then adjusted d r
  else
    let rc := if fb d (ra pgPos 0x100) 31 then none else ctxOfPort d.force (ff d (ra pgPos 0x100) 11 8)
    match rc with
    | none => none
    | some c =>
      ((heldStamps (wst d c.1 c.2)).find? (fun s => decide (s.sysLine = n))).bind (adjusted d)

/-- The held line of a context nearest to a web position, the older of two equally near (R393). -/
def nearestHeld (d : Dev) (s : WaleSt) (xn : Int) : Option Nat :=
  ((heldStamps s).foldl (fun (a : Option (Nat × Nat)) st =>
    match adjusted d st with
    | none => a
    | some v =>
      let k := (v - xn).natAbs
      match a with
      | none => some (st.camLine, k)
      | some b => if k < b.2 then some (st.camLine, k) else a) none).map (fun p => p.1)

/-- One piece of a history read: the columns one context owns, or why they cannot be had. -/
inductive PieceRead where
  | ok (vs : List Nat)
  | gone
  | bad (e : DecErr)
  deriving DecidableEq, Repr

/-- The samples of line `n` of station `ss` that context `c` owns, within columns `lo` to `hi` (R393). -/
def readPiece (d : Dev) (m : Mem) (c : Nat × Nat) (pl n lo hi : Nat) : PieceRead :=
  let s := wst d c.1 c.2
  match (xOf d n).bind (nearestHeld d s) with
  | none => .gone
  | some k =>
    match chunkOf s k with
    | none => .gone
    | some h =>
      match readChunk m h with
      | .error e => .bad e
      | .ok rows =>
        match rows.find? (fun l => decide (l.stamp.camLine = k)) with
        | none => .gone
        | some l =>
          let vs := (List.range (hi + 1 - lo)).map (fun i => storedAt l pl (lo + i))
          if vs.any (fun v => v.isNone) then .gone else .ok (vs.map (fun v => (v.getD default).v))

/-- A patch row from patch staging, when the line is still there (R349). -/
def stagedRow (d : Dev) (ss pl n lo hi : Nat) : Option (List Nat) :=
  match (tat d.stn ss).staged.find? (fun l => decide (l.n = n)) with
  | none => none
  | some l =>
    let vs := (List.range (hi + 1 - lo)).map (fun i =>
      let col := lo + i
      l.parts.findSome? (fun p =>
        if col < p.1 then none
        else (p.2.find? (fun q => decide (q.1 = pl))).bind (fun q => q.2[col - p.1]?)))
    if vs.any (fun v => v.isNone) then none else some (vs.map (fun v => v.getD 0))

/-- A patch row as read: its samples, or none, with the decoder's error if one was met (R349, R393). -/
def patchRow (d : Dev) (m : Mem) (ss pl n lo hi : Nat) : Option (List Nat) × Option DecErr :=
  match stagedRow d ss pl n lo hi with
  | some vs => (some vs, none)
  | none =>
    let f := d.force
    let own := (camsOf f ss).map (fun c => (c, ownedSpan f c.1 c.2))
    let cuts := isort (fun a b => decide (a.2.1 ≤ b.2.1)) (own.filter (fun o => decide (o.2.1 ≤ hi ∧ lo ≤ o.2.2)))
    let ps := cuts.map (fun o => readPiece d m o.1 pl n (Nat.max lo o.2.1) (Nat.min hi o.2.2))
    let vs := ps.flatMap (fun p => match p with | .ok v => v | _ => [])
    let err := ps.findSome? (fun p => match p with | .bad e => some e | _ => none)
    if err.isSome then (none, err) else (if vs.length = hi + 1 - lo then some vs else none, none)

/-- The rectangle of a patch and what was found for it (R350). -/
structure PatchBody where
  status : Nat
  rows : List (List Nat)
  err : Option DecErr
  deriving DecidableEq, Repr

/-- Cut a patch: `h` rows from line `top`, columns `lo` to `hi`, of plane `pl` (R349, R350, R391, R393). -/
def cutPatch (d : Dev) (m : Mem) (ss pl top h lo hi : Nat) : PatchBody :=
  let rs := (List.range h).map (fun i => patchRow d m ss pl (top + i) lo hi)
  let blank := List.replicate (hi + 1 - lo) 0
  let err := rs.findSome? (fun r => r.2)
  { status := if err.isSome then 5 else if rs.all (fun r => r.1.isNone) then 4 else if rs.any (fun r => r.1.isNone) then 2 else 1
    rows := rs.map (fun r => r.1.getD blank), err := err }

/-- Payload and header of a patch after word 0 (R350). -/
def patchBytes (d : Dev) (b : PatchBody) (ss pl top lo hi : Nat) (cropped compress : Bool) : List Byte × List Byte :=
  let wd := hi + 1 - lo
  let raw := b.rows.flatMap (packBits 16)
  let pay := if b.status > 2 then []
    else if compress then (container 0 (Config.patchPred % 4) 16 wd (b.rows.map (fun r => newRow [r] [] [])) true).1 else raw
  let web := ((xOf d top).getD 0)
  let h := leBytes 8 top ++
    leBytes 8 (lo + 2 ^ 20 * wd + 2 ^ 31 * b.rows.length + 2 ^ 42 * cropped.toNat + 2 ^ 43 * (compress && decide (b.status ≤ 2)).toNat +
      2 ^ 44 * ss + 2 ^ 47 * pl) ++
    leBytes 8 pay.length ++ leBytes 8 (sf 64 web) ++ List.replicate 24 0
  (h, pay)

end Sys2Proof.Machine
end

