-- ==== Sys2Proof/Machine/Jobs.lean ====
section
/-!
DEFINITION. Reprocess jobs: the checks at submission, lines through the free wale, and what the job writes
(R394 to R405).
-/

namespace Sys2Proof.Machine

/-- The job an operand list asks for (R394). -/
def jobOf (ws : List Dword) : Job :=
  let w := dwAt ws
  { tag := dfld (w 0) 24 16, buf := (w 1).toNat, room := dfld (w 2) 31 0, firstLine := (w 3).toNat,
    lines := dfld (w 4) 31 0, src := dfld (w 4) 36 32, tgt := dfld (w 4) 43 40, stn := dfld (w 4) 46 44,
    leadIn := (w 4).getLsbD 47, ownLo := dfld (w 5) 19 0, ownHi := dfld (w 5) 39 20 }

/-- SRC_WALE and SRC_CONTEXT of a job (R394). -/
def jobSrc (j : Job) : Nat × Nat := (j.src % 16, j.src / 16)

/-- The first status that refuses a job, if any (R395). -/
def jobCheck (d : Dev) (ws : List Dword) : Option Nat :=
  let w := dwAt ws
  let j := jobOf ws
  let f := d.force
  let s := wst d (jobSrc j).1 (jobSrc j).2
  let nn := histNo (jobSrc j).1 (jobSrc j).2
  let win := stnCfg f j.stn {}
  let tex := vf f (segA j.tgt 0 0x100) 23 22
  let held := (heldStamps s).filter (fun t => decide (j.firstLine ≤ t.camLine ∧ t.camLine < j.firstLine + j.lines))
  let feats := (s.hBusy.head?.map (fun h => h.feats)).getD (featsOn f (jobSrc j).1 (jobSrc j).2)
  if dfld (w 2) 63 32 ≠ 0 ∨ dfld (w 4) 39 37 ≠ 0 ∨ dfld (w 4) 63 48 ≠ 0 ∨ dfld (w 5) 63 40 ≠ 0 ∨ w 6 ≠ 0 ∨ w 7 ≠ 0 ∨
      j.lines = 0 ∨ j.lines > 16777215 ∨ j.ownLo > j.ownHi ∨ j.firstLine + j.lines > 4 * s.hNext then some 0x02
  else if j.room < 64 then some 0x06
  else if !vb f (ra (pgIn j.tgt) 0x100) 30 then some 0x11
  else if !vb f (ra pgTrk (0x200 + 0x20 * j.stn)) 31 ∨ vb f (ra pgPos (0x200 + 0x20 * j.stn)) 19 ∨
      !(decide (win.col ≤ j.ownLo ∧ j.ownHi < win.col + win.len)) then some 0x12
  else if !vb f (segA j.tgt 0 0x100) 31 ∨ (tex ≠ 0 ∧ !feats.contains (tex - 1)) then some 0x13
  else if !vb f (histA nn 0) 31 ∨ held.isEmpty then some 0x14
  else none

/-- Whether a job waits for an earlier one that names its wale or station (R396). -/
def jobBlocked (d : Dev) (earlier : List Job) (j : Job) : Bool :=
  (runningJobs d ++ earlier).any (fun k => decide (k.tgt = j.tgt ∨ k.stn = j.stn))

/-- The first waiting job that may start (R396). -/
def pickJob (d : Dev) : List Job → List Job → Option Job
  | _, [] => none
  | earlier, j :: rest => if jobBlocked d earlier j then pickJob d (earlier ++ [j]) rest else some j

/-- What the STAT register of a job slot shows (R406). -/
def jobStat (d : Dev) (s : Nat) (j : Option Job) : Dev :=
  setReg d (ra pgHist (0x140 + 0x10 * s)) (match j with
    | none => 0
    | some j => wpack [(31, 1, 1), (16, 9, j.tag), (8, 4, j.tgt), (4, 3, j.stn)])

/-- Put a job into a slot, or take it out. -/
def setJob (d : Dev) (s : Nat) (j : Option Job) : Dev :=
  histStat (jobStat { d with jobs := tset d.jobs s j } s j)

/-- Whether the lines before the range that learning asks for are all held (R399). -/
def leadHeld (d : Dev) (j : Job) (n : Nat) : Bool :=
  decide (n ≤ j.firstLine) && (List.range n).all (fun i =>
    (heldStamps (wst d (jobSrc j).1 (jobSrc j).2)).any (fun t => decide (t.camLine = j.firstLine - n + i)))

/-- A waiting job takes a free slot; learning starts (R396, R397, R399). -/
def startJob (d : Dev) : Dev :=
  match (List.range 4).find? (fun s => (tat d.jobs s).isNone), pickJob d [] d.jobq with
  | some s, some j =>
    if throttleStep d ≥ 1 ∨ d.restart then d
    else
      let n := ff d (segA j.tgt 0 0x104) 23 12
      let lead := j.leadIn && leadHeld d j n
      let j' := { j with ver := d.ver, next := if lead then j.firstLine - n else j.firstLine, leadIn := lead }
      let d := { d with jobq := d.jobq.erase j }
      let d := setSgs d j.tgt 0 { (sgs d j.tgt 0) with en := false, pend := [], hist := [], block := none, gaps := [],
                                                       credBlock := none }
      setJob d s (some j')
  | _, _ => d

/-- A job's stretch of work: the tracker sees its own stamp ring and coil IDs, and what would go to Border is
the job's output (R402). -/
def withJob (d : Dev) (j : Job) (g : Dev → Dev) : Dev × Job × List Rec :=
  let live := d.trk.ring
  let bin := d.bin
  let id := reg d (ra pgTrk 0x110)
  let d := setReg (setTrk { d with bin := {} } { d.trk with ring := j.ring }) (ra pgTrk 0x110) (BitVec.ofNat 32 j.coilNext)
  let e := g d
  let out := e.bin.gaps.map (fun g => g.1) ++ e.bin.coils.map (fun c => c.body)
  let j := { j with ring := e.trk.ring, coilNext := (reg e (ra pgTrk 0x110)).toNat }
  (setReg (setTrk { e with bin := bin } { e.trk with ring := live }) (ra pgTrk 0x110) id, j, out)

/-- A record as the job's buffer holds it: its ordinal, and the class of its gaps (R402). -/
def jobRec (j : Job) (r : Rec) : Rec :=
  let w0 := if dfld r.w0 63 60 = 2 then (r.w0 &&& ~~~ dpack [(40, 8, 0xFF)]) ||| dpack [(40, 8, gapCls j.tgt 0)] else r.w0
  { r with w0 := w0, w1 := (r.w1 &&& 0xFFFF) ||| dpack [(16, 48, j.recs)] }

/-- The 64 bytes of a record (R324, R11). -/
def recBytes (r : Rec) : List Byte :=
  [r.w0, r.w1, r.w2, r.w3, r.w4, r.w5, r.w6, r.w7].flatMap (fun w => leBytes 8 w.toNat)

/-- The job's records go to its buffer while there is room (R402, R403). -/
def writeJob (m : Mem) (j : Job) : List Rec → Mem × Job
  | [] => (m, j)
  | r :: rs =>
    if 128 + 64 * j.recs ≤ j.room then
      writeJob { m with host := mwrite zeroByte m.host (j.buf + 64 + 64 * j.recs) (recBytes (jobRec j r)) }
        { j with recs := j.recs + 1 } rs
    else writeJob m { j with lost := j.lost + 1 } rs

/-- A held line over a job's working span, filled under rules 3 and 4 of R227 (R398). -/
def jobSpan (l : SLine) (pl lo hi : Nat) : List Px :=
  let vs := (List.range (hi + 1 - lo)).map (fun i => storedAt l pl (lo + i))
  let va := vs.toArray
  vs.zipIdx.map (fun v =>
    match v.1 with
    | some p => p
    | none =>
      ((List.range (va.size + 1)).findSome? (fun k =>
        if k ≤ v.2 ∧ (va.getD (v.2 - k) none).isSome then va.getD (v.2 - k) none else va.getD (v.2 + k) none)).getD noPx)

/-- A line of a job as segmentation takes it; none for a line that is unseen (R398, R400). -/
def jobLineSpan (d : Dev) (j : Job) (n : Nat) (l : Option SLine) (st : Stamp) : SpanLine :=
  let lo := j.ownLo - 8
  let hi := Nat.min (j.ownHi + 8) 1048575
  let tex := vf (forceOf d j.ver) (segA j.tgt 0 0x100) 23 22
  let blank : List Px := List.replicate (hi + 1 - lo) noPx
  let y := (l.map (fun l => jobSpan l 0 lo hi)).getD blank
  let t := if tex = 0 then y
    else ((l.map (fun l => jobSpan l tex lo hi)).getD blank |>.zip y).map (fun p => { p.1 with m := p.1.m || p.2.m })
  { n := n, stamp := { st with ver := j.ver, sysLine := n }, station := j.stn, lo := lo, ownLo := j.ownLo,
    ownHi := j.ownHi, y := y, t := t }

/-- Form the runs of every waiting line that may form them, and label their lines (R263, R398). -/
def pushJob (m : Mem) (j : Job) (all : Bool) : Nat → Dev → Dev
  | 0, d => d
  | fuel + 1, d =>
    let s := sgs d j.tgt 0
    let dv := if all then 0 else morphDv (forceOf d j.ver) j.tgt 0
    if s.pend.length > dv then pushJob m j all fuel (trackLine m (formRuns d j.tgt 0) j.stn) else d

/-- Take one line through the target wale (R398, R399). -/
def feedJob (m : Mem) (j : Job) (n : Nat) (l : Option SLine) (st : Stamp) (d : Dev) : Dev :=
  let d := segLine d j.tgt 0 (jobLineSpan d j n l st)
  if n < j.firstLine then setSgs d j.tgt 0 { (sgs d j.tgt 0) with pend := [] } else pushJob m j false 64 d

/-- After the last line CLOSE_LINES void lines close the job's coils by their own rule (R400). -/
def endJob (m : Mem) (j : Job) (st : Stamp) (d : Dev) : Dev :=
  let close := (stnCfg (forceOf d j.ver) j.stn {}).close
  let last := j.firstLine + j.lines
  let d := (List.range close).foldl (fun d i => feedJob m j (last + i) none st d) d
  pushJob m { j with ovr := true } true (close + 64) { d with jobs := d.jobs.map (fun e =>
    if e.2.map (fun k => k.tag) = some j.tag then (e.1, e.2.map (fun k => { k with ovr := true })) else e) }

/-- What a job reads of its next line: the line, or whether its chunk failed to decode (R398). -/
def jobFetch (d : Dev) (m : Mem) (j : Job) : Option SLine × Option DecErr × Bool :=
  let s := wst d (jobSrc j).1 (jobSrc j).2
  match chunkOf s j.next with
  | none => (none, none, true)
  | some h =>
    match readChunk m h with
    | .error e => (none, some e, true)
    | .ok rows =>
      match rows.find? (fun l => decide (l.stamp.camLine = j.next)) with
      | none => (none, none, true)
      | some l => if l.gap then (none, none, false) else (some l, none, false)

/-- The job in slot `s` takes its next line (R398 to R400, R405). -/
def jobNext (d : Dev) (m : Mem) (s : Nat) : Dev × Mem :=
  match tat d.jobs s with
  | none => (d, m)
  | some j =>
    if j.ovr ∨ throttleStep d ≥ 1 ∨ d.paused.contains (d.pos.sysLine / 256) then (d, m)
    else
      let r := jobFetch d m j
      let fresh := decide (j.next % 4 = 0) || decide (j.next = j.firstLine)
      let d := match r.2.1 with
        | some e => if fresh then decError d e else d
        | none => d
      let st := (r.1.map (fun l => l.stamp)).getD { (tget (fun _ => ({} : Stamp)) j.ring ((j.next - 1) % 262144)) with camLine := j.next }
      let inRange := decide (j.firstLine ≤ j.next)
      let j := if !inRange then j
        else if r.2.2 then { j with missing := j.missing + 1, undecoded := j.undecoded + r.2.1.isSome.toNat }
        else { j with done := j.done + 1, firstDone := if j.done = 0 then j.next else j.firstDone, lastDone := j.next }
      let last := decide (j.next + 1 = j.firstLine + j.lines)
      let w := withJob d j (fun d =>
        let d := feedJob m j j.next r.1 st d
        if last then endJob m j st d else d)
      let j := { w.2.1 with next := j.next + 1, ovr := last }
      let q := writeJob m j w.2.2
      (setJob w.1 s (some q.2), q.1)

/-- Status of a finished job (R404). -/
def jobStatus (j : Job) (aborted : Bool) : Nat :=
  if aborted then 0x15 else if j.lost ≠ 0 then 0x06 else if j.missing ≠ 0 then 0x10 else 0x00

/-- The summary at the head of a job's buffer (R403). -/
def jobSummary (j : Job) (status : Nat) : List Byte :=
  leBytes 8 j.firstLine ++ leBytes 4 j.lines ++ leBytes 4 j.done ++ leBytes 8 j.firstDone ++ leBytes 8 j.lastDone ++
    leBytes 4 j.missing ++ leBytes 4 j.undecoded ++ leBytes 4 j.recs ++ leBytes 4 j.lost ++
    leBytes 8 (status + 2 ^ 8 * j.tgt + 2 ^ 12 * j.stn) ++ leBytes 8 0

/-- A job was ended by orderly shutdown or by the isolation of its wale's die (R404). -/
def jobAborted (d : Dev) (j : Job) : Bool := d.iso.contains (j.tgt / 4) || rb d (ra pgTherm 0x108) 27

/-- The job in slot `s` finishes: its summary is written, JOB_DONE is raised, and its status is known (R403,
R404, R407). -/
def jobFinish (d : Dev) (m : Mem) (s : Nat) : Option (Dev × Mem × Job × Nat) :=
  match tat d.jobs s with
  | none => none
  | some j =>
    let ab := jobAborted d j
    if !j.ovr ∧ !ab then none
    else
      let w := if j.ovr then (d, j, []) else withJob d j (fun d => flushStation m (forceOf d j.ver) d j.stn)
      let q := writeJob m w.2.1 w.2.2
      let st := jobStatus q.2 (ab && !j.ovr)
      let m := { q.1 with host := mwrite zeroByte q.1.host j.buf (jobSummary q.2 st) }
      let d := setSgs w.1 j.tgt 0 { (sgs w.1 j.tgt 0) with en := false, pend := [], hist := [] }
      let d := { d with rods := d.rods.filter (fun k => !decide (k.station = j.stn)) }
      some (evt (setJob d s none) pgHist 2, m, q.2, st)

end Sys2Proof.Machine
end

