-- ==== Sys2Proof/Machine/Border.lean ====
section
/-!
DEFINITION. Border: numbering, the record store, destinations, refinement, patches, and the host rings that its
records and patches go to (R336 to R356, R362 to R367).
-/

namespace Sys2Proof.Machine

/-- Records the store holds (R340). -/
def storeSize : Nat := 524288

/-- Sequence numbers wrap at 2^48 (R337). -/
def seqMod : Nat := 2 ^ 48

/-- Base of ring group `rr` (R370). -/
def ringA (rr o : Nat) : Nat := ra pgHif (0x100 + 0x40 * rr + o)

/-- Whether a host ring is enabled. -/
def ringOn (d : Dev) (rr : Nat) : Bool := rb d (ringA rr 8) 31

/-- Entries of a host ring (R354). -/
def ringLen (d : Dev) (rr : Nat) : Nat := 2 ^ rf d (ringA rr 8) 4 0

/-- Bytes of an entry of a host ring (R354). -/
def ringEntry (d : Dev) (rr : Nat) : Nat :=
  match rr with
  | 0 => 64
  | 1 => 131072
  | 2 => 65536 * 4 ^ rf d (ringA 2 8) 21 20
  | 3 => 64
  | _ => 16

/-- PROD of a ring. -/
def ringProd (d : Dev) (rr : Nat) : Nat := (reg d (ringA rr 12)).toNat

/-- CONS of a ring. -/
def ringCons (d : Dev) (rr : Nat) : Nat := (reg d (ringA rr 16)).toNat

/-- Entries in use, PROD − CONS as an unsigned 32-bit difference (R354). -/
def ringUsed (d : Dev) (rr : Nat) : Nat := (ringProd d rr + 2 ^ 32 - ringCons d rr) % 2 ^ 32

/-- FULL of a ring follows its indices (R354). -/
def ringFull (d : Dev) (rr : Nat) : Dev := pokeBit d (ringA rr 28) 31 (ringOn d rr && decide (ringUsed d rr = ringLen d rr))

/-- Whether an enabled ring has room for an entry (R354). -/
def ringRoom (d : Dev) (rr : Nat) : Bool := ringOn d rr && decide (ringUsed d rr < ringLen d rr)

/-- Host address of entry `n` of a ring (R354). -/
def ringAddr (d : Dev) (rr n : Nat) : Nat := reg64 d (ringA rr 0) + ringEntry d rr * (n % ringLen d rr)

/-- The MSI-X vector of a part-produced ring (R362). -/
def ringVector (rr : Nat) : Nat := [0, 3, 2, 0, 1].getD rr 0

/-- The ring whose entries vector `v` announces. -/
def vectorRing (v : Nat) : Nat := [0, 4, 2, 1].getD v 0

/-- An entry counts toward its vector, which sends a message once COUNT are there (R363). -/
def coalesce (d : Dev) (rr : Nat) : Dev :=
  let v := ringVector rr
  let c := tget (fun _ => ((0, 0) : Nat × Nat)) d.hif.coal v
  let n := c.1 + 1
  if n ≥ Nat.max 1 (rf d (ringA rr 32) 31 16) then
    emit { d with hif := { d.hif with coal := tput (fun _ => (0, 0)) d.hif.coal v (0, 0) } } (.msix v)
  else
    { d with hif := { d.hif with coal := tput (fun _ => (0, 0)) d.hif.coal v (n, if c.1 = 0 then d.cycle else c.2) } }

/-- COAL.TIME has passed since the first entry a vector has not announced (R363). -/
def coalTimeout (d : Dev) (v : Nat) : Dev :=
  let c := tget (fun _ => ((0, 0) : Nat × Nat)) d.hif.coal v
  if c.1 = 0 then d
  else emit { d with hif := { d.hif with coal := tput (fun _ => (0, 0)) d.hif.coal v (0, 0) } } (.msix v)

/-- Announce an entry written to a ring: PROD advances, is written back, and counts toward its vector unless
`quiet` (R354, R357, R363). -/
def produce (d : Dev) (m : Mem) (rr : Nat) (quiet : Bool) : Dev × Mem :=
  let d := wrapBy d (ringA rr 12) 31 0 1
  let m := if rb d (ringA rr 8) 30 then
      { m with host := mwrite zeroByte m.host (reg64 d (ringA rr 20)) (leBytes 4 (ringProd d rr)) }
    else m
  let d := ringFull d rr
  (if quiet then d else coalesce d rr, m)

/-- A completed statistics packet goes to its ring, or is dropped when the ring is full (R204, R355). -/
def statDma (d : Dev) (m : Mem) (w : Nat) (bytes : List Byte) : Dev × Mem :=
  if ringRoom d 1 then
    let a := ringAddr d 1 (ringProd d 1)
    let m := { m with host := mwrite zeroByte m.host a bytes }
    produce d { m with host := mwrite zeroByte m.host (a + 0x1FFF8) (leBytes 8 w) } 1 false
  else (count d (ra pgBorder 0x154), m)

/-- The registers of destination `dd` (R368). -/
def destA (dd o : Nat) : Nat := ra pgBorder (0x200 + 0x40 * dd + o)

/-- A destination's state. -/
def dest (d : Dev) (dd : Nat) : Dest := tat d.border.dests dd

/-- Replace a destination's state. -/
def setDest (d : Dev) (dd : Nat) (x : Dest) : Dev := { d with border := { d.border with dests := tset d.border.dests dd x } }

/-- Whether a destination delivers. -/
def destOn (d : Dev) (dd : Nat) : Bool := rb d (destA dd 0) 31

/-- A record passes a destination's filter (R341). -/
def passes (d : Dev) (dd : Nat) (r : StoreRec) : Bool :=
  let t := dfld r.body.w0 63 60
  decide (1 ≤ t ∧ t ≤ 5) && rb d (destA dd 0) (25 + t) &&
    (!(decide (t = 1 ∨ t = 5)) || decide (rf d (destA dd 0) 23 16 ≤ dfld r.body.w1 15 8)) &&
    (!r.relayed || (decide (dd ≠ 3) && rb d (destA dd 0) 25))

/-- Note a record a destination missed (R334, R342). -/
def addMiss (ms : List LossRun) (r : StoreRec) : List LossRun :=
  if ms.any (fun l => decide (l.origin = r.origin)) then
    ms.map (fun l => if l.origin = r.origin then { l with lastSeq := r.seq, count := l.count + 1 } else l)
  else ms ++ [{ origin := r.origin, firstSeq := r.seq, lastSeq := r.seq, count := 1 }]

/-- Next local sequence number a destination delivers (R368). -/
def destNext (d : Dev) (dd : Nat) : Nat :=
  let p := (dest d dd).pos
  ((d.border.store.drop (p - d.border.base)).find? (fun r => !r.relayed)).map (fun r => r.seq) |>.getD d.border.seq

/-- LAG and NEXT of the destinations follow the store (R368); BORDER_STORE counts what is held, and STORE_HIGH
is raised when it passes 471,859 (R369). -/
def storeCounts (d : Dev) : Dev :=
  let b := d.border
  let was := rf d (ra pgBorder 0x10C) 19 0
  let d := poke d (ra pgBorder 0x10C) 19 0 b.store.length
  let d := (List.range 4).foldl (fun d dd =>
    poke d (destA dd 16) 19 0 (b.base + b.store.length - Nat.max b.base (dest d dd).pos)) d
  if was ≤ 471859 ∧ b.store.length > 471859 then evt d pgBorder 4 else d

/-- The oldest record leaves a full store; destinations that have not had it lose it (R342, R343). -/
def dropOldest (d : Dev) : Dev :=
  match d.border.store with
  | [] => d
  | r :: rest =>
    let p := d.border.base
    let d := (List.range 4).foldl (fun d dd =>
      let x := dest d dd
      if x.pos = p then
        let lose := passes d dd r && !pairMuted d
        let x := { x with pos := p + 1, sent := Nat.max x.sent (p + 1), miss := if lose then addMiss x.miss r else x.miss }
        let d := setDest d dd x
        if lose && destOn d dd then evt (count d (destA dd 12)) pgBorder 0 else d
      else d) d
    { d with border := { d.border with store := rest, base := p + 1 } }

/-- The QDR-IV granule of the record that entered the store as number `k` (R340, R435). -/
def recGranule (k : Nat) : Nat := 0x100000 + k % storeSize

/-- Enter a record in the store (R339, R340, R342). -/
def enterStore (d : Dev) (r : StoreRec) : Dev :=
  let d := if d.border.store.length ≥ storeSize then dropOldest d else d
  let g := recGranule (d.border.base + d.border.store.length)
  let d := { d with qdrBad := d.qdrBad.filter (fun q => decide (q ≠ g)) }
  storeCounts { d with border := { d.border with store := d.border.store ++ [r] } }

/-- A destination enabled again counts what it missed meanwhile (R343). -/
def destEnable (d : Dev) (dd : Nat) : Dev :=
  let n := (dest d dd).miss.foldl (fun a l => a + l.count) 0
  if n = 0 then d else evt (countBy d (destA dd 12) 31 0 n) pgBorder 0

/-- Whether a class bit is set in a group of eight registers (R345, R348). -/
def classBit (d : Dev) (o cls : Nat) : Bool := rb d (ra pgBorder (o + 4 * (cls / 32))) (cls % 32)

/-- The first of `n` kept places and last, when an extent is cut to 1,024 around `a` to `b` (R349). -/
def cutExtent (lo hi a b : Nat) : Nat × Nat × Bool :=
  if hi + 1 - lo ≤ 1024 then (lo, hi, false)
  else
    let s : Int := (a : Int) + ((b : Int) - a + 1 - 1024) / 2
    let s := (satI s lo ((hi : Int) - 1023)).toNat
    (s, s + 1023, true)

/-- A new record of this part is given a patch slot where one is asked for (R348, R356). -/
def assignPatch (d : Dev) (r : Rec) (c : CoilOut) (seq : Nat) : Dev × Rec :=
  let t := dfld r.w0 63 60
  let ok := (decide (t = 1) || (decide (t = 5) && !r.w0.getLsbD 57)) && rb d (ra pgBorder 0x100) 30 &&
    classBit d 0x180 (dfld r.w0 47 40) && decide (rf d (ra pgBorder 0x160) 15 8 ≤ dfld r.w1 15 8)
  if !ok || pairMuted d then (d, r)
  else
    let b := d.border
    let used := (b.slots + 2 ^ 32 - ringCons d 2) % 2 ^ 32
    if ringOn d 2 ∧ used < ringLen d 2 then
      let slot := b.slots % ringLen d 2
      let left := dfld r.w4 39 20
      let job : PatchJob := { slot := b.slots, seq := seq, station := dfld r.w0 50 48, left := left,
                              right := left + dfld r.w4 19 0 - 1, first := c.first, last := c.last }
      ({ d with border := { b with slots := (b.slots + 1) % 2 ^ 32, patches := b.patches ++ [job] } },
        { r with w7 := (r.w7 &&& ~~~ 0xFFFF) ||| dpack [(0, 16, slot)] })
    else (evt (count d (ra pgBorder 0x14C)) pgBorder 3, r)

/-- A record is copied into the refine queue where its class asks for it (R345); it then awaits a verdict. -/
def refineCopy (d : Dev) (m : Mem) (r : Rec) : Dev × Mem × Option Nat :=
  let t := dfld r.w0 63 60
  if !((decide (t = 1) || decide (t = 5)) && rb d (ra pgBorder 0x100) 29 && classBit d 0x1A0 (dfld r.w0 47 40)) then (d, m, none)
  else
    let prod := (reg d (ra pgBorder 0x124)).toNat
    let cons := (reg d (ra pgBorder 0x128)).toNat
    if (prod + 2 ^ 32 - cons) % 2 ^ 32 ≥ 1024 then (count d (ra pgBorder 0x144), m, none)
    else
      let a := reg64 d (ra pgBorder 0x11C) + 64 * (prod % 1024)
      (wrapBy d (ra pgBorder 0x124) 31 0 1, { m with handle := mwrite zeroByte m.handle a (recBytes r) },
        some (d.cycle + usCycles (Nat.max 1 (rf d (ra pgBorder 0x110) 9 0))))

/-- A record of this part takes the next sequence number and enters the store (R337 to R339, R345, R348). -/
def numberRec (d : Dev) (m : Mem) (r : Rec) (c : CoilOut) : Dev × Mem :=
  let seq := d.border.seq
  let r := { r with w1 := (r.w1 &&& 0xFFFF) ||| dpack [(16, 48, seq)] }
  let role := decide (dfld r.w0 63 60 = 3) && decide (dfld r.w0 59 54 = 4)
  let r := if role then { r with w5 := dpack [(0, 48, seq + 1)] } else r
  let d := if pairEn d then { d with pair := { d.pair with recs := d.pair.recs ++ [r] } } else d
  let p := assignPatch d r c seq
  let q := refineCopy p.1 m p.2
  let d := { q.1 with border := { q.1.border with seq := (seq + 1) % seqMod } }
  (enterStore d { body := p.2, origin := originNode d, seq := seq, due := q.2.2 }, q.2.1)

/-- A record of last line `n` enters the store: a sample of monitor source 0x10 (R606). -/
def entryTime (d : Dev) (n : Nat) : Dev :=
  match tget (fun _ => none) d.refLines n with
  | none => d
  | some st => monSample d 0x10 ((d.cycle : Int) - st.cycle)

/-- A joining part takes no record before the snapshot is in place: its output until then is discarded (R539). -/
def joinWaits (d : Dev) : Bool := pairEn d && decide (pairState d = 2) && decide (rf d (ra pgPair 0x12C) 31 29 ≠ 4)

/-- Border takes the next record of its inputs: notes, markers, gaps, coils, and last of all a STOP record (R331,
R337, R338). -/
def intake (d : Dev) (m : Mem) : Dev × Mem :=
  let b := d.bin
  if !rb d (ra pgBorder 0x100) 31 || d.border.stopped || joinWaits d then (d, m)
  else
    match b.notes, b.markers, b.gaps, b.coils with
    | r :: t, _, _, _ => numberRec { d with bin := { b with notes := t } } m r {}
    | _, r :: t, _, _ => numberRec { d with bin := { b with markers := t } } m r {}
    | _, _, r :: t, _ =>
      let p := numberRec { d with bin := { b with gaps := t } } m r.1 {}
      (entryTime p.1 r.2, p.2)
    | _, _, _, c :: t =>
      let p := numberRec { d with bin := { b with coils := t } } m c.body c
      (entryTime p.1 c.last, p.2)
    | _, _, _, _ =>
      match b.stop with
      | none => (d, m)
      | some r => numberRec { d with bin := { b with stop := none }, border := { d.border with stopped := true } } m r {}

/-- Border begins: the START marker is the first record after Upsett (R334, DEDUCED, log 19). -/
def borderBegin (d : Dev) : Dev :=
  if d.border.began then d
  else pushMarker { d with border := { d.border with began := true } } (markerRec d 3 0 d.pos.sysLine 0 0)

/-- A LOSS marker for records a destination missed (R334, R336, R342). -/
def lossRec (d : Dev) (l : LossRun) (next : Nat) : Rec :=
  let r := markerRec d 2 1 l.firstSeq l.lastSeq (l.count % 2 ^ 32)
  { r with w0 := (r.w0 &&& ~~~ dpack [(32, 8, 0xFF)]) ||| dpack [(32, 8, l.origin)]
           w1 := (r.w1 &&& 0xFF) ||| dpack [(16, 48, next)] }

/-- The next sequence number of an origin node that a destination will deliver (R336). -/
def nextOf (d : Dev) (dd origin : Nat) : Nat :=
  ((d.border.store.drop ((dest d dd).pos - d.border.base)).find? (fun r => decide (r.origin = origin))).map (fun r => r.seq)
    |>.getD (if origin = originNode d then d.border.seq else 0)

/-- Write a record into the host record ring (R340, R354). -/
def ringRecord (d : Dev) (m : Mem) (r : Rec) : Dev × Mem :=
  produce d { m with host := mwrite zeroByte m.host (ringAddr d 0 (ringProd d 0)) (recBytes r) } 0 false

/-- Queue a record for an Ethernet destination's next datagram (R365). -/
def queueRecord (d : Dev) (dd : Nat) (r : Rec) : Dev :=
  let x := dest d dd
  setDest d dd { x with queue := x.queue ++ [r], firstAt := if x.queue.isEmpty then d.cycle else x.firstAt }

/-- Whether a destination can send now (R343). -/
def destRoom (d : Dev) (dd : Nat) : Bool :=
  match dd with
  | 0 => ringRoom d 0
  | 1 => d.ethUp.contains 0
  | 2 => d.ethUp.contains 1
  | _ => fabOn d && idValid d

/-- The words of a record, as frames carry them (R461). -/
def recWords (r : Rec) : List Dword := [r.w0, r.w1, r.w2, r.w3, r.w4, r.w5, r.w6, r.w7]

/-- Send a record, or a marker of its own, to a destination. -/
def sendTo (d : Dev) (m : Mem) (dd : Nat) (r : Rec) : Dev × Mem :=
  match dd with
  | 0 => ringRecord d m r
  | 1 => (queueRecord d 1 r, m)
  | 2 => (queueRecord d 2 r, m)
  | _ => (originate d 5 (some (rf d (destA 3 0) 5 0)) (0 :: recWords r), m)

/-- The place of the first record from `p` on that a destination delivers, or where the store ends, and
whether a refinement is awaited before it. -/
def scanStore (d : Dev) (dd : Nat) : List StoreRec → Nat → Nat × Option StoreRec × Bool
  | [], p => (p, none, false)
  | r :: rs, p =>
    if r.due.isSome then (p, none, true)
    else if passes d dd r then (p, some r, false)
    else scanStore d dd rs (p + 1)

/-- While PROTECTED a record waits until the standby part has formed it too (R529). -/
def gated (d : Dev) (r : StoreRec) : Bool :=
  decide (pairState d = 4) && !r.relayed && decide ((d.pair.twinFormed + seqMod - (r.seq + 1)) % seqMod ≥ seqMod / 2)

/-- Record `k` is read from QDR-IV, being older than the 32,768 kept on the die, and its word is uncorrectable (R340,
R436). -/
def unreadable (d : Dev) (k : Nat) : Bool :=
  d.qdrBad.contains (recGranule k) && decide (k + 32768 < d.border.base + d.border.store.length)

/-- A destination with room delivers its next record under its filter, LOSS markers first; one that cannot be read
is skipped (R340 to R343, R347, R436). -/
def deliver (d : Dev) (m : Mem) (dd : Nat) : Dev × Mem :=
  if !destOn d dd ∨ !destRoom d dd ∨ pairMuted d then (d, m)
  else
    let x := dest d dd
    match x.miss with
    | l :: ls =>
      let q := sendTo d m dd (lossRec d l (nextOf d dd l.origin))
      (setDest q.1 dd { (dest q.1 dd) with miss := ls }, q.2)
    | [] =>
      let at' := if dd = 3 then Nat.max x.pos x.sent else x.pos
      let s := scanStore d dd (d.border.store.drop (at' - d.border.base)) at'
      match s.2.1 with
      | none => (if dd = 3 then d else storeCounts (setDest d dd { x with pos := s.1 }), m)
      | some r =>
        if gated d r then (d, m)
        else if unreadable d s.1 then
          let x := { x with pos := if dd = 3 then x.pos else s.1 + 1, sent := Nat.max x.sent (s.1 + 1), miss := addMiss x.miss r }
          (storeCounts (evt (count (setDest d dd x) (destA dd 12)) pgBorder 0), m)
        else
        let q := sendTo d m dd r.body
        let y := dest q.1 dd
        if dd = 3 then (setDest q.1 dd { y with sent := s.1 + 1, sentAt := if x.sent ≤ x.pos then d.cycle else y.sentAt }, q.2)
        else (storeCounts (setDest q.1 dd { y with pos := s.1 + 1 }), q.2)

/-- How far a list of records is delivered, from place `p` and no further than `top`. -/
def ackSkip (done : StoreRec → Bool) (top : Nat) : List StoreRec → Nat → Nat
  | [], p => p
  | r :: rs, p => if p < top ∧ done r then ackSkip done top rs (p + 1) else p

/-- The collector has acknowledged the local records up to a sequence number (R461). -/
def destAcked (d : Dev) (seq : Nat) : Dev :=
  let x := dest d 3
  let done (r : StoreRec) : Bool :=
    r.relayed || !passes d 3 r || decide ((seq + seqMod - r.seq) % seqMod < seqMod / 2)
  let p := ackSkip done (Nat.max x.pos x.sent) (d.border.store.drop (x.pos - d.border.base)) x.pos
  storeCounts (setDest d 3 { x with pos := p, sent := Nat.max p x.sent, sentAt := d.cycle })

/-- Destination 03 sends again from the first record not acknowledged (R461). -/
def destResend (d : Dev) : Dev := setDest d 3 { (dest d 3) with sent := (dest d 3).pos, sentAt := d.cycle }

/-- A verdict replaces the class and confidence of the pending record with its sequence number (R346, R347). -/
def verdict (d : Dev) (hi : Word) : Dev :=
  let lo := reg d (ra pgBorder 0x114)
  let seq := fld lo 31 16 + 65536 * hi.toNat
  let hit (r : StoreRec) : Bool := !r.relayed && decide (r.seq = seq) && r.due.isSome
  if d.border.store.any hit then
    let set (r : StoreRec) : StoreRec :=
      { r with due := none
               body := { r.body with
                 w0 := (r.body.w0 &&& ~~~ dpack [(40, 8, 0xFF)]) ||| dpack [(40, 8, fld lo 15 8)]
                 w1 := (r.body.w1 &&& ~~~ dpack [(8, 8, 0xFF)]) ||| dpack [(8, 8, fld lo 7 0)] } }
    { d with border := { d.border with store := d.border.store.map (fun r => if hit r then set r else r) } }
  else count d (ra pgBorder 0x148)

/-- The edge on which the first pending refinement ends (R347). -/
def refineDue (d : Dev) : Option Nat :=
  match d.border.store.filterMap (fun r => r.due) with
  | [] => none
  | t :: ts => some (ts.foldl Nat.min t)

/-- Pending records whose time is up are released unchanged (R347). -/
def refineExpire (d : Dev) : Dev :=
  let late (r : StoreRec) : Bool := match r.due with | some t => decide (t ≤ d.cycle) | none => false
  let n := (d.border.store.filter late).length
  let d := { d with border := { d.border with store := d.border.store.map (fun r => if late r then { r with due := none } else r) } }
  if n = 0 then d else evt (countBy d (ra pgBorder 0x140) 31 0 n) pgBorder 1

/-- Columns of the part span (R210). -/
def partSpan (d : Dev) : Nat × Nat :=
  let b := ff d (ra pgStitch 0x100) 19 0
  (b, Nat.min (b + 524287) 1048575)

/-- Border cuts its next patch and writes its slot, header word 0 last (R349 to R351). -/
def patchWrite (d : Dev) (m : Mem) : Dev × Mem :=
  match d.border.patches with
  | [] => (d, m)
  | j :: rest =>
    let cfg := reg d (ra pgBorder 0x160)
    let mg := fld cfg 26 18
    let sp := partSpan d
    let cx := cutExtent (Nat.max (j.left - mg) sp.1) (Nat.min (j.right + mg) sp.2) j.left j.right
    let cy := cutExtent (j.first - mg) (j.last + mg) j.first j.last
    let waiting := decide ((tat d.stn j.station).next ≤ cy.2.1) && !(camsOf d.force j.station).isEmpty
    if waiting then (d, m)
    else
      let pl := fld cfg 30 27
      let body := cutPatch d m j.station pl cy.1 (cy.2.1 + 1 - cy.1) cx.1 cx.2.1
      let d := match body.err with | some e => decError d e | none => d
      let p := patchBytes d body j.station pl cy.1 cx.1 cx.2.1 (cx.2.2 || cy.2.2) (bitOf cfg 31)
      let big := decide (64 + p.2.length > ringEntry d 2)
      let st := if big then 3 else body.status
      let a := ringAddr d 2 j.slot
      let h0 := leBytes 8 (j.seq + 2 ^ 48 * originNode d + 2 ^ 56 * st)
      let pay := if big ∨ st > 2 then [] else p.2
      let hdr := if big then p.1.take 16 ++ leBytes 8 0 ++ p.1.drop 24 else p.1
      let m := { m with host := mwrite zeroByte (mwrite zeroByte (mwrite zeroByte m.host (a + 64) pay) (a + 8) hdr) a h0 }
      let d := { d with border := { d.border with patches := rest } }
      let d := if st = 1 then d else evt (count d (ra pgBorder 0x150)) pgBorder 2
      if ringOn d 2 then produce d m 2 false else (d, m)

/-- The header of a datagram (R365). -/
def dgHeader (d : Dev) (dd : Nat) (n : Nat) (resent : Bool) : List Byte :=
  leBytes 4 (0x7B1E + 2 ^ 16 + 2 ^ 24 * resent.toNat) ++
    leBytes 4 (n + 256 * (if rb d (ra pgFab 0x100) 31 then myId d else 0) + 2 ^ 14 * (dd - 1)) ++
    leBytes 8 ((dest d dd).dgSeq) ++ leBytes 8 (if resent then 0 else destNext d dd) ++
    leBytes 8 (timeSec d % 2 ^ 32 * 2 ^ 32 + timeNs d)

/-- Send records as one datagram (R365). -/
def sendDatagram (d : Dev) (dd : Nat) (rs : List Rec) (resent : Bool) : Dev :=
  let d := emit d (.datagram (dd - 1) (dgHeader d dd rs.length resent ++ rs.flatMap recBytes))
  let x := dest d dd
  setDest d dd { x with dgSeq := (x.dgSeq + 1) % 2 ^ 32, sentAt := d.cycle }

/-- MAX_RECS of an Ethernet destination (R365). -/
def maxRecs (d : Dev) (dd : Nat) : Nat := Nat.max 1 (rf d (destA dd 0x28) 15 8)

/-- The records of a resend request that are still held and pass the filter, in order (R367). -/
def resendRecs (d : Dev) (dd first n : Nat) : List StoreRec :=
  d.border.store.filter (fun r => !r.relayed && decide ((r.seq + seqMod - first) % seqMod < n) && passes d dd r)

/-- The next RESENT datagram of the request being served (R367). -/
def sendResent (d : Dev) (dd : Nat) : Dev :=
  let x := dest d dd
  match x.resend with
  | none => d
  | some (first, n) =>
    let held := d.border.store.filter (fun r => !r.relayed)
    let old := (held.head?.map (fun r => r.seq)).getD d.border.seq
    let gone := (old + seqMod - first) % seqMod
    let miss := if gone < 2 ^ 47 then Nat.min gone n else 0
    let rs := (resendRecs d dd first n).take (maxRecs d dd)
    let loss : List Rec := if miss = 0 then []
      else [lossRec d { origin := originNode d, firstSeq := first, lastSeq := (first + miss - 1) % seqMod, count := miss }
              (destNext d dd)]
    let body := (loss ++ rs.map (fun r => r.body)).take (maxRecs d dd)
    let kept := body.length - loss.length
    let fwd := match rs[kept - 1]? with
      | some r => if kept = 0 then miss else (r.seq + 1 + seqMod - first) % seqMod
      | none => miss
    let more := !(resendRecs d dd ((first + fwd) % seqMod) (n - fwd)).isEmpty
    let d := if body.isEmpty then d else sendDatagram d dd body true
    setDest d dd { (dest d dd) with resend := if more then some ((first + fwd) % seqMod, n - fwd) else none }

/-- A datagram of the queued records leaves, when it is full or its time has come (R365); between them a
resend in progress goes on (R367). -/
def datagramDue (d : Dev) (dd : Nat) : Option Nat :=
  let x := dest d dd
  if x.queue.isEmpty then none
  else if x.queue.length ≥ maxRecs d dd then some d.cycle
  else some (x.firstAt + usCycles (rf d (destA dd 0x28) 31 16))

/-- Send a datagram of the queued records (R365). -/
def sendQueued (d : Dev) (dd : Nat) : Dev :=
  let x := dest d dd
  let n := maxRecs d dd
  let d := setDest d dd { x with queue := x.queue.drop n, firstAt := d.cycle }
  sendDatagram d dd (x.queue.take n) false

/-- A fill record (R335, R336). -/
def fillRec (d : Dev) (dd : Nat) : Rec where
  w0 := recW0 d 15 32 0 0 0
  w1 := dpack [(16, 48, destNext d dd), (0, 8, d.pos.epoch)]
  w2 := dpack [(0, 64, d.pos.sysLine)]
  w6 := recW6 (timeStamp d)

/-- A resend request arrives on an Ethernet port (R367). -/
def resendRequest (d : Dev) (dd : Nat) (fromDst : Bool) (p : List Byte) : Dev :=
  let busy (d : Dev) : Dev := evt (countBy d (destA dd 0x2C) 31 16 1) pgBorder 5
  let n := ofLeBytes ((p.drop 4).take 2)
  let head := ofLeBytes (p.take 3)
  if !fromDst then busy d
  else if p.length ≠ 16 ∨ head ≠ 0x017B1F ∨ n = 0 ∨ n > 1024 then count d (destA dd 0x30)
  else if (dest d dd).resend.isSome then busy d
  else
    sendResent (setDest d dd { (dest d dd) with resend := some (ofLeBytes ((p.drop 8).take 6), n) }) dd

end Sys2Proof.Machine
end

