-- ==== Sys2Proof/Machine/Wicker.lean ====
section
/-!
DEFINITION. Wicker: producer rows, logic cells, channel groups, the check against loops, and the edges that
reach consumers (R544 to R560).
-/

namespace Sys2Proof.Machine

/-- Address of a register of the WKR page. -/
def wkrA (o : Nat) : Nat := ra pgWkr o

/-- The code row `pp` is fed by (R546). -/
def pselOf (d : Dev) (pp : Nat) : Nat := rf d (wkrA (0x180 + 4 * pp)) 15 0

/-- Whether row `r` reaches slot `c` (R547). -/
def matBit (d : Dev) (c r : Nat) : Bool := rb d (wkrA (0x300 + 0x10 * c + 4 * (r / 32))) (r % 32)

/-- The channel group of slot `c` (R552). -/
def groupOf (d : Dev) (c : Nat) : Nat := rf d (wkrA (0x900 + 4 * c)) 31 28

/-- The group of slot `c` is enabled (R552). -/
def groupOn (d : Dev) (c : Nat) : Bool := rb d (wkrA 0x104) (groupOf d c)

/-- What slot `c` feeds (R548). -/
def targetOf (d : Dev) (c : Nat) : Nat := if c < 32 then 0 else rf d (wkrA (0x900 + 4 * c)) 11 0

/-- The level a producer shows on the present edge: a pulse on the edge it fired (R545 to R547). -/
def producerLevel (d : Dev) (code : Nat) : Bool :=
  if 0x1000 ≤ code ∧ code < 0x1040 then rb d (ra (pgSkein ((code - 0x1000) / 4)) 0x120) (code % 4)
  else if 0x1040 ≤ code ∧ code < 0x1048 then d.wkr.balls.testBit (code - 0x1040)
  else decide (tat d.wkr.fired code = some d.cycle)

/-- CELL_CFG of cell `nn` (R578). -/
def cellCfg (d : Dev) (nn : Nat) : Word := reg d (wkrA (0xB00 + 0x10 * nn))

/-- The row that cell `nn` takes as input `i`, 1 to 3 (R554). -/
def cellSel (d : Dev) (nn i : Nat) : Nat := rf d (wkrA (0xB04 + 0x10 * nn)) (8 * i - 2) (8 * i - 8)

/-- The level of row `r` through at most `fuel` cells (R546, R554, R557). -/
def rowLevel : Nat → Dev → Nat → Bool
  | 0, d, r => decide (r < 96) && producerLevel d (pselOf d r)
  | fuel + 1, d, r =>
    if r < 96 then producerLevel d (pselOf d r)
    else
      let nn := r - 96
      let cfg := cellCfg d nn
      if bitOf cfg 16 then tat d.wkr.q nn
      else
        let i0 := groupOn d nn && (List.range 128).any (fun r => matBit d nn r && rowLevel fuel d r)
        let i := fun k => rowLevel fuel d (cellSel d nn k)
        bitOf cfg ((i 3).toNat * 8 + (i 2).toNat * 4 + (i 1).toNat * 2 + i0.toNat)

/-- The level of a row; no chain of cells is longer than the 32 there are (R557). -/
def row (d : Dev) (r : Nat) : Bool := rowLevel 33 d r

/-- OUT of cell `nn` (R554, R555). -/
def cellOut (d : Dev) (nn : Nat) : Bool := row d (96 + nn)

/-! ### Consumers -/

/-- Slot `c` is routed to `target` and takes edges from some row (R548). -/
def slotFeeds (d : Dev) (c target : Nat) : Bool :=
  decide (32 ≤ c) && decide (targetOf d c = target) && (List.range 128).any (fun r => matBit d c r)

/-- A disabled group stops an edge (R552). -/
def gateEdge (d : Dev) (c : Nat) : Dev := countBy d (wkrA (0xA84 + 8 * groupOf d c)) 15 0 1

/-- A busy consumer ignores an edge (R549). -/
def ignoreEdge (d : Dev) (c : Nat) : Dev := evt (countBy d (wkrA (0xD00 + 4 * c)) 31 16 1) pgWkr 3

/-- An edge that merges with one on the same slot (R550). -/
def mergeEdge (d : Dev) (c : Nat) : Dev := countBy d (wkrA (0xD00 + 4 * c)) 15 0 1

/-- A rising edge at slot `c`, which feeds `target`: gated, merged, ignored while the consumer is busy, or
passed on. The answer says whether it is passed on (R549, R550, R552). -/
def slotEdge (d : Dev) (c target : Nat) (busy : Bool) : Dev × Bool :=
  if !slotFeeds d c target then (d, false)
  else if !groupOn d c then (gateEdge d c, false)
  else if tat d.wkr.rose c = some d.cycle then (mergeEdge d c, false)
  else
    let d := { d with wkr := { d.wkr with rose := tset d.wkr.rose c (some d.cycle) } }
    if busy then (ignoreEdge d c, false) else (d, true)

/-- The consumer `target` is busy (R548). -/
def targetBusy (d : Dev) (target : Nat) : Bool := decide (d.cycle < tat d.wkr.busy target)

/-- The consumer `target` is busy until edge `t`. -/
def setBusy (d : Dev) (target t : Nat) : Dev := { d with wkr := { d.wkr with busy := tset d.wkr.busy target t } }

/-- An edge dropped by a group or a cell (R553, R555). -/
def refire (d : Dev) : Dev := evt (pokeBit d (wkrA 0x100) 29 true) pgWkr 2

/-- Less than 10 ns have passed since `t`. -/
def within10 (d : Dev) (t : Option Nat) : Bool :=
  match t with
  | none => false
  | some x => decide (d.cycle < x + 4)

/-- An ON or OFF edge of group `g` (R552, R553). -/
def groupEdge (d : Dev) (g : Nat) (on off : Bool) : Dev :=
  if !rb d (wkrA (0xA80 + 8 * g)) 31 || !(on || off) then d
  else if within10 d (tat d.wkr.groupAt g) then countBy (refire d) (wkrA (0xA84 + 8 * g)) 31 16 1
  else
    let now := !off
    if rb d (wkrA 0x104) g = now then d
    else pokeBit { d with wkr := { d.wkr with groupAt := tset d.wkr.groupAt g (some d.cycle) } } (wkrA 0x104) g now

/-- The balls WKR_IN take levels (R546). -/
def setBalls (d : Dev) (b : Nat) : Dev := { d with wkr := { d.wkr with balls := b } }

/-- A rising edge at i0 of cell `nn` (R555). -/
def cellEdge (d : Dev) (nn : Nat) : Dev :=
  let cfg := cellCfg d nn
  if !bitOf cfg 16 then d
  else if !groupOn d nn then gateEdge d nn
  else if within10 d (tat d.wkr.cellAt nn) then countBy (refire d) (wkrA (0xB08 + 0x10 * nn)) 15 0 1
  else
    let i := fun k => row d (cellSel d nn k)
    let q := bitOf cfg ((tat d.wkr.q nn).toNat * 8 + (i 2).toNat * 4 + (i 1).toNat * 2 + 1)
    { d with wkr := { d.wkr with q := tset d.wkr.q nn q, cellAt := tset d.wkr.cellAt nn (some d.cycle) } }

/-! ### Writes of the routing -/

/-- The page that is interrupt source `s`, below 128 (R544). -/
def pageOfSource (s : Nat) : Option Nat :=
  (((List.range 8).map pgEnc) ++ [pgCmp, pgTrg] ++ (List.range 16).map pgSkein ++
    (List.range 16).flatMap (fun w => [pgFront w, pgColor w, pgGeom w, pgSeg w]) ++
    [pgStitch, pgTrk, pgBorder, pgHif, pgHist, pgLpx, pgQdr, pgFab] ++ (List.range 5).map pgFabPort ++
    [pgTime, pgPair, pgWkr, pgIntc, pgPwr, pgTherm, pgAvs, pgCal, pgMon, pgFlt, pgErrc, pgSnap]).find?
      (fun pg => decide (pageSource pg = s))

/-- The code names a producer (R546). -/
def codeKnown (code : Nat) : Bool :=
  if code < 0x1000 then
    match pageOfSource (code / 32) with
    | none => false
    | some pg =>
      match pageInfo pg with
      | none => false
      | some p => bitOf p.evt (code % 32)
  else decide (code < 0x104A) || decide (code = 0xFFFF)

/-- The target names a consumer (R548). -/
def targetKnown (t : Nat) : Bool :=
  decide (t ≤ 0x010) || (decide (0x020 ≤ t) && decide (t ≤ 0x022)) || (decide (0x040 ≤ t) && decide (t < 0x088)) ||
    (decide (0x0A0 ≤ t) && decide (t < 0x0C0))

/-- An unknown code, target or filter is refused (R546, R548). -/
def selRefuse (d : Dev) (o : Nat) : Dev := evt (poke (pokeBit d (wkrA 0x100) 30 true) (wkrA 0x100) 11 0 o) pgWkr 1

/-- A write of WKR_PSEL at page offset `o` (R546). -/
def pselWrite (d : Dev) (o v : Nat) : Dev :=
  if codeKnown (v % 65536) then poke d (wkrA o) 15 0 v else selRefuse d o

/-- Cell `a` feeds cell `b`, neither a flip-flop (R557). -/
def cellFeeds (d : Dev) (a b : Nat) : Bool :=
  !bitOf (cellCfg d a) 16 && !bitOf (cellCfg d b) 16 &&
    (matBit d b (96 + a) || [1, 2, 3].any (fun k => decide (cellSel d b k = 96 + a)))

/-- The cells of `cs` that some cell of `cs` feeds; what is left after enough rounds lies on a loop. -/
def fedCells (d : Dev) : Nat → List Nat → List Nat
  | 0, cs => cs
  | n + 1, cs => fedCells d n (cs.filter (fun b => cs.any (fun a => cellFeeds d a b)))

/-- The routing holds a combinational loop (R557). -/
def wkrLoops (d : Dev) : Bool := !(fedCells d 33 (List.range 32)).isEmpty

/-- A write that would close a loop is refused (R558). -/
def loopRefuse (d : Dev) (o : Nat) : Dev := evt (poke (pokeBit d (wkrA 0x100) 31 true) (wkrA 0x100) 11 0 o) pgWkr 0

/-- Page offset `o` is the CFG of a cell. -/
def isCellCfg (o : Nat) : Bool := decide (0xB00 ≤ o) && decide (o < 0xD00) && decide (o % 16 = 0)

/-- Page offset `o` is a matrix word, or a cell's CFG or SEL: what R558 checks. -/
def isRouting (o : Nat) : Bool :=
  (decide (0x300 ≤ o) && decide (o < 0x900)) || (decide (0xB00 ≤ o) && decide (o < 0xD00) && decide (o % 16 < 8))

/-- A write of a matrix word or cell at page offset `o`; a cell's CFG loads Q with INIT (R555, R558). -/
def routingWrite (d : Dev) (o : Nat) (v : Word) : Dev :=
  if isCellCfg o ∧ fld v 19 17 > 4 then selRefuse d o
  else
    let keep : Word := if isCellCfg o then 0x4FFFFF else if 0xB00 ≤ o then 0x7F7F7F else 0xFFFFFFFF
    let e := setReg d (wkrA o) (v &&& keep)
    if wkrLoops e then loopRefuse d o
    else if isCellCfg o then { e with wkr := { e.wkr with q := tset e.wkr.q ((o - 0xB00) / 16) (bitOf v 22) } }
    else e

/-- A write of WKR_CSEL at page offset `o` (R548). -/
def cselWrite (d : Dev) (o : Nat) (v : Word) : Dev :=
  if 0x980 ≤ o ∧ !targetKnown (fld v 11 0) then selRefuse d o
  else setReg d (wkrA o) (v &&& (if o < 0x980 then 0xF0000000 else 0xF0000FFF))

end Sys2Proof.Machine
end

