-- ==== Sys2Proof/Machine/Intc.lean ====
section
/-!
DEFINITION. The interrupt controller: arrivals, claims, delivery to cores and host, and completions (R561 to
R571).
-/

namespace Sys2Proof.Machine

/-- Address of a register of the INTC page. -/
def intcA (o : Nat) : Nat := ra pgIntc o

/-- The status word of source `s` (R580). -/
def srcA (s : Nat) : Nat := ra pgIntcSt (0x100 + 4 * s)

/-- STATE of source `s` (R562). -/
def srcState (d : Dev) (s : Nat) : Nat := rf d (srcA s) 31 29

/-- Source `s` moves to a state. -/
def setSrc (d : Dev) (s st : Nat) : Dev := poke d (srcA s) 31 29 st

/-- Source `s` is claimed (R562). -/
def srcClaimed (d : Dev) (s : Nat) : Bool := decide (2 ≤ srcState d s)

/-- The configuration a source is under: while it is claimed, that of the claim (R566). -/
def srcCfg (d : Dev) (s : Nat) : Word := (tat d.intc.under s).getD (reg d (intcA (0x300 + 4 * s)))

/-- The level at the input of source `s`; `ball` is the level of a source with no register of its own (R544,
R570). -/
def srcLevel (d : Dev) (s : Nat) (ball : Bool) : Bool :=
  if s < 128 then
    match pageOfSource s with
    | none => false
    | some pg => pageLevel d pg
  else if s < 160 then ball
  else if s < 192 then rb d (intcA 0x1A8) (s - 160)
  else false

/-- The threshold of a core: the priority of its innermost entry (R567). -/
def coreThreshold (d : Dev) (tt : Nat) : Nat :=
  match tat d.intc.stack tt with
  | [] => 0
  | e :: _ => e.2

/-- INTC_Ttt_STATE: threshold, depth, innermost source (R579). -/
def showCore (d : Dev) (tt : Nat) : Dev :=
  let st := tat d.intc.stack tt
  setReg d (intcA (0x108 + 0x20 * tt))
    (wpack [(28, 4, coreThreshold d tt), (24, 4, st.length), (0, 9, (st.head?.map (fun e => e.1)).getD 0)])

/-- Replace a core's stack. -/
def setStack (d : Dev) (tt : Nat) (st : List (Nat × Nat)) : Dev :=
  showCore { d with intc := { d.intc with stack := tset d.intc.stack tt st } } tt

/-- A claim copies ARRIVALS to LAST_ARR and clears it (R561). -/
def claimSrc (d : Dev) (s : Nat) : Dev :=
  let a := rf d (srcA s) 7 0
  setSrc (poke (poke d (srcA s) 15 8 a) (srcA s) 7 0 0) s 2

/-- A source waits for a target, as TARGET codes it (R562). -/
def waitsFor (d : Dev) (code s : Nat) : Bool :=
  let c := srcCfg d s
  decide (srcState d s = 1) && bitOf c 31 && decide (fld c 28 26 = code)

/-- The source a core takes next: the highest PRIO above its threshold, the lowest number on a tie (R567). -/
def nextFor (d : Dev) (tt : Nat) : Option Nat :=
  (List.range 192).foldl (fun (best : Option Nat) s =>
    let p := fld (srcCfg d s) 25 22
    if waitsFor d (tt + 1) s && decide (p > coreThreshold d tt) then
      match best with
      | none => some s
      | some b => if p > fld (srcCfg d b) 25 22 then some s else best
    else best) none

/-- A core enters for every source it takes, at most to a depth of 15 (R567). -/
def enterCore : Nat → Dev → Nat → Dev
  | 0, d, _ => d
  | n + 1, d, tt =>
    match nextFor d tt with
    | none => d
    | some s =>
      let st := tat d.intc.stack tt
      if st.length ≥ 15 then d
      else
        let d := setStack (claimSrc d s) tt ((s, fld (srcCfg d s) 25 22) :: st)
        let base := reg64 d (intcA (0x100 + 0x20 * tt))
        enterCore n (emit d (.coreEntry tt s ((base + 16 * s) % 2 ^ 64))) tt

/-- A host-targeted source is claimed as its message is sent (R569). -/
def tellHost (d : Dev) (s : Nat) : Dev :=
  if waitsFor d 5 s then
    let d := claimSrc d s
    let d := pokeBit d (ra pgIntcSt (0x900 + 4 * (s / 32))) (s % 32) true
    emit d (.msix (fld (srcCfg d s) 7 0))
  else d

/-- Every pending source is delivered to its target, where that takes it (R567, R569). -/
def intcDeliver (d : Dev) : Dev :=
  let d := (List.range 4).foldl (fun d tt => enterCore 15 d tt) d
  (List.range 192).foldl tellHost d

/-- One arrival counts, saturating at 255 (R561). -/
def arrival (d : Dev) (s : Nat) : Dev := countBy d (srcA s) 7 0 1

/-- The input of source `s` takes a level: what its SENSE calls an arrival, and its state (R561 to R563). -/
def senseSrc (d : Dev) (s : Nat) (now : Bool) : Dev :=
  let was := rb d (srcA s) 28
  let d := pokeBit d (srcA s) 28 now
  let sense := fld (srcCfg d s) 30 29
  if sense = 0 then
    let d := if now && !was then arrival d s else d
    match srcState d s with
    | 0 => if now then setSrc d s 1 else d
    | 1 => if now then d else setSrc d s 0
    | 2 => if now then d else setSrc d s 4
    | 4 => if now then setSrc d s 2 else d
    | _ => d
  else
    let hit := match sense with
      | 1 => now && !was
      | 2 => was && !now
      | _ => now != was
    if hit then
      let d := arrival d s
      match srcState d s with
      | 0 => setSrc d s 1
      | 2 => setSrc d s 3
      | _ => d
    else d

/-- A sensed event of source `s` arrives and is delivered (R561, R567, R569). -/
def arrive (d : Dev) (s : Nat) (ball : Bool) : Dev :=
  if s < 192 then intcDeliver (senseSrc d s (srcLevel d s ball)) else d

/-- The target that a claimed source was delivered to, 4 for the host. -/
def claimant (d : Dev) (s : Nat) : Nat := fld (srcCfg d s) 28 26 - 1

/-- A completion by target `tt` (R564 to R566, R568). -/
def completeSrc (d : Dev) (tt s : Nat) : Dev :=
  if srcClaimed d s && decide (claimant d s = tt) then
    let again := decide (srcState d s = 3) ||
      (decide (srcState d s = 2) && decide (fld (srcCfg d s) 30 29 = 0) && rb d (srcA s) 28)
    let d := setSrc d s again.toNat
    let d := if tt < 4 then setStack d tt ((tat d.intc.stack tt).filter (fun e => decide (e.1 ≠ s)))
      else pokeBit d (ra pgIntcSt (0x900 + 4 * (s / 32))) (s % 32) false
    intcDeliver { d with intc := { d.intc with under := tset d.intc.under s none } }
  else
    let d := count d (intcA (0x110 + 0x20 * tt))
    evt (setReg d (intcA (0x114 + 0x20 * tt)) (BitVec.ofNat 32 s)) pgIntc 0

/-- A refused configuration (R569, R579). -/
def intcRefuse (d : Dev) : Dev := evt (pokeBit d (intcA 0x1A0) 31 true) pgIntc 1

/-- A write of a source's configuration; a claimed source completes under the old one (R566, R569). -/
def srcCfgWrite (d : Dev) (s : Nat) (v : Word) : Dev :=
  if fld v 28 26 > 5 ∨ fld v 7 0 < 8 then intcRefuse d
  else
    let a := intcA (0x300 + 4 * s)
    let d := if srcClaimed d s then
        { d with intc := { d.intc with under := tset d.intc.under s (some (srcCfg d s)) } }
      else d
    let d := setReg d a (v &&& 0xFFC000FF)
    let d := if srcClaimed d s then d
      else if fld v 30 29 = 0 then setSrc d s (rb d (srcA s) 28).toNat else d
    intcDeliver d

/-- Software sources take new levels, and are sensed (R570). -/
def swiWrite (d : Dev) (v : Word) : Dev :=
  let d := setReg d (intcA 0x1A8) v
  intcDeliver ((List.range 32).foldl (fun d j => senseSrc d (160 + j) (rb d (intcA 0x1A8) j)) d)

/-- INTC_SWI_SET (R570). -/
def swiSet (d : Dev) (bits : Word) : Dev := swiWrite d (reg d (intcA 0x1A8) ||| bits)

/-- A write of INTC_SWI (R570). -/
def swiClear (d : Dev) (bits : Word) : Dev := swiWrite d (reg d (intcA 0x1A8) &&& ~~~ bits)

/-- Every source claimed by one of the targets returns to PENDING with ARRIVALS unchanged (R571, R641). -/
def repend (d : Dev) (targets : List Nat) : Dev :=
  let d := (List.range 192).foldl (fun d s =>
    if srcClaimed d s && targets.contains (claimant d s) then
      let d := setSrc d s 1
      let d := pokeBit d (ra pgIntcSt (0x900 + 4 * (s / 32))) (s % 32) false
      { d with intc := { d.intc with under := tset d.intc.under s none } }
    else d) d
  (targets.filter (fun t => decide (t < 4))).foldl (fun d t => setStack d t []) d

/-- Level sources are sampled again, and what IRQ_W latches hold is presented as one arrival each (R560, R576). -/
def resample (d : Dev) : Dev :=
  let d := (List.range 192).foldl (fun d s =>
    if 128 ≤ s ∧ s < 160 then d
    else if fld (srcCfg d s) 30 29 = 0 then senseSrc d s (srcLevel d s false) else d) d
  let d := d.wkr.latched.foldl (fun d k => senseSrc (senseSrc d (128 + k) false) (128 + k) true) d
  intcDeliver { d with wkr := { d.wkr with latched := [] } }

end Sys2Proof.Machine
end

