-- ==== Sys2Proof/Machine/Hif.lean ====
section
/-!
DEFINITION. Host commands: fetching, fences, completion, and the commands that read and write no register (R88 to R90,
R344, R354 to R361, R394 to R404, R571).
-/

namespace Sys2Proof.Machine

/-- Status of a command (R360). -/
def stOk : Nat := 0
def stBadOpcode : Nat := 1
def stBadArg : Nat := 2
def stDmaFault : Nat := 3
def stNotHeld : Nat := 4
def stRestarted : Nat := 5
def stShort : Nat := 6
def stDataErr : Nat := 7

/-- OPCODE of a command (R357). -/
def HostCmd.opcode (c : HostCmd) : Nat := dfld (dwAt c.words 0) 7 0

/-- Host buffer address and length of a command (R357). -/
def HostCmd.buf (c : HostCmd) : Nat := (dwAt c.words 1).toNat
def HostCmd.room (c : HostCmd) : Nat := dfld (dwAt c.words 2) 31 0

/-- The outstanding command with a tag. -/
def cmdOf (d : Dev) (tag : Nat) : Option HostCmd := d.hif.cmds.find? (fun c => decide (c.tag = tag))

/-- The command with a tag, if it is the opcode's, may start and has not finished. -/
def startable (d : Dev) (tag op : Nat) : Option HostCmd :=
  (cmdOf d tag).filter (fun c => c.go && c.fin.isNone && decide (c.opcode = op))

/-- A command finishes: its completion waits to be written in the order of finishing (R88, R361). -/
def finishCmd (d : Dev) (tag : Nat) (e : CmdEnd) : Dev :=
  match cmdOf d tag with
  | none => d
  | some c =>
    if c.fin.isSome then d
    else
      { d with hif := { d.hif with cmds := d.hif.cmds.map (fun k => if k.tag = tag then { k with fin := some e } else k),
                                   finished := d.hif.finished ++ [tag] } }

/-- Opcodes of R358. -/
def knownOpcode (op : Nat) : Bool := [0, 1, 2, 0x10, 0x11, 0x20].contains op

/-- A command may start now; one of no known opcode completes at once (R358, R360). -/
def takeTail (d : Dev) (tag : Nat) : Dev :=
  match cmdOf d tag with
  | none => d
  | some c =>
    let d := { d with hif := { d.hif with cmds := d.hif.cmds.map (fun k => if k.tag = tag then { k with go := true } else k) } }
    if knownOpcode c.opcode then d else finishCmd d tag { status := stBadOpcode }

/-- Commands submitted before the one with a tag. -/
def cmdsBefore (d : Dev) (tag : Nat) : List HostCmd := d.hif.cmds.takeWhile (fun c => decide (c.tag ≠ tag))

/-- A fenced command starts once every earlier command has completed (R90). -/
def fenceOpen (d : Dev) (tag : Nat) : Dev :=
  match cmdOf d tag with
  | none => d
  | some c => if !c.go && (cmdsBefore d tag).all (fun k => k.fin.isSome) then takeTail d tag else d

/-- The next descriptor is fetched while fewer than 512 commands are outstanding (R354, R357, R361). One with a tag in
use is not executed (R89). -/
def fetchCmd (d : Dev) (m : Mem) : Dev :=
  if !ringOn d 3 || decide (ringUsed d 3 = 0) || decide (512 ≤ d.hif.cmds.length) then d
  else
    let a := ringAddr d 3 (ringCons d 3)
    let ws : List Dword := (List.range 8).map (fun i => BitVec.ofNat 64 (ofLeBytes (mread zeroByte m.host (a + 8 * i) 8)))
    let d := ringFull (wrapBy d (ringA 3 16) 31 0 1) 3
    let tag := dfld (dwAt ws 0) 24 16
    if (cmdOf d tag).isSome then evt (count d (ra pgHif 0x01C)) pgHif 5
    else
      let d := { d with hif := { d.hif with cmds := d.hif.cmds ++ [{ tag := tag, words := ws, fetched := d.cycle }] } }
      if (dwAt ws 0).getLsbD 8 then fenceOpen d tag else takeTail d tag

/-- The completion of the command that finished first is written once the ring has room, and its tag is free (R88,
R359, R361, R606). -/
def writeCompletion (d : Dev) (m : Mem) : Dev × Mem :=
  match d.hif.finished with
  | [] => (d, m)
  | tag :: rest =>
    match cmdOf d tag with
    | none => (d, m)
    | some c =>
      if !ringRoom d 4 then (d, m)
      else
        let e := c.fin.getD {}
        let n := ringProd d 4
        let phase := if n / ringLen d 4 % 2 = 0 then 0x8000 else 0
        let entry := leBytes 2 (tag + phase) ++ leBytes 1 e.status ++ leBytes 1 c.opcode ++ leBytes 4 e.len ++ leBytes 8 e.value
        let m := { m with host := mwrite zeroByte m.host (ringAddr d 4 n) entry }
        let d := { d with hif := { d.hif with cmds := d.hif.cmds.filter (fun k => decide (k.tag ≠ tag)), finished := rest } }
        let d := monSample d 0x11 ((d.cycle : Int) - c.fetched)
        produce d m 4 ((dwAt c.words 0).getLsbD 9)

/-- NOP (R358). -/
def nopCmd (d : Dev) (tag : Nat) : Dev :=
  match startable d tag 0 with
  | none => d
  | some _ => finishCmd d tag {}

/-- Write a command's result, as much of it as its buffer takes (R360). -/
def putResult (m : Mem) (c : HostCmd) (bs : List Byte) : Mem :=
  { m with host := mwrite zeroByte m.host c.buf (bs.take c.room) }

/-- How a result of `n` bytes ended, `st` being its status where it fits. -/
def resultEnd (c : HostCmd) (n st value : Nat) : CmdEnd :=
  { status := if c.room < n then stShort else st, len := Nat.min n c.room, value := value }

/-- PATCH_FETCH: a patch of held lines in the format of R350 (R358). A patch of which some lines are held is OK, and its
header says PARTIAL. -/
def patchFetch (d : Dev) (m : Mem) (tag : Nat) (dmaOk : Bool) : Dev × Mem :=
  match startable d tag 0x10 with
  | none => (d, m)
  | some c =>
    let top := (dwAt c.words 3).toNat
    let w := dwAt c.words 4
    let left := dfld w 19 0
    let wd := dfld w 30 20
    let h := dfld w 41 31
    let ss := dfld w 44 42
    let pl := dfld w 48 45
    if wd = 0 ∨ 1024 < wd ∨ h = 0 ∨ 1024 < h ∨ 2 ^ 20 < left + wd then (finishCmd d tag { status := stBadArg }, m)
    else
      let body := cutPatch d m ss pl top h left (left + wd - 1)
      let d := match body.err with | some e => decError d e | none => d
      let p := patchBytes d body ss pl top left (left + wd - 1) false (w.getLsbD 49)
      let bs := leBytes 8 (2 ^ 48 * originNode d + 2 ^ 56 * body.status) ++ p.1 ++ p.2
      let st := if body.status = 5 then stDataErr else if body.status = 4 then stNotHeld else stOk
      if !dmaOk then (finishCmd d tag { status := stDmaFault }, m)
      else (finishCmd d tag (resultEnd c bs.length st 0), putResult m c bs)

/-- The records of a range that are held, by their place in the store, in order of sequence number. -/
def heldRange (d : Dev) (first n : Nat) : List (Nat × StoreRec) :=
  (d.border.store.zipIdx.map (fun r => (d.border.base + r.2, r.1))).filter (fun r =>
    !r.2.relayed && decide ((r.2.seq + seqMod - first) % seqMod < n))

/-- RECORD_FETCH: the held records of a range, up to one that cannot be read (R358 to R360, R436). -/
def recordFetch (d : Dev) (m : Mem) (tag : Nat) (dmaOk : Bool) : Dev × Mem :=
  match startable d tag 0x11 with
  | none => (d, m)
  | some c =>
    let first := dfld (dwAt c.words 3) 47 0
    let n := dfld (dwAt c.words 4) 31 0
    let held := heldRange d first n
    let rs := held.takeWhile (fun r => !unreadable d r.1)
    let fit := rs.take (c.room / 64)
    let next := match fit.getLast? with
      | some r => (r.2.seq + 1) % seqMod
      | none => first
    let st := if fit.length < rs.length then stShort else if rs.length < held.length then stDmaFault
      else if held.length < n then stNotHeld else stOk
    if !dmaOk then (finishCmd d tag { status := stDmaFault, value := first }, m)
    else
      (finishCmd d tag { status := st, len := 64 * fit.length, value := next },
        putResult m c (fit.flatMap (fun r => recBytes r.2.body)))

/-- REPROCESS: the job is checked, and queued or completed at once (R395, R396). -/
def reprocessCmd (d : Dev) (tag : Nat) : Dev :=
  match startable d tag 0x20 with
  | none => d
  | some c =>
    if (d.jobq ++ runningJobs d).any (fun j => decide (j.tag = tag)) then d
    else
      match jobCheck d c.words with
      | some st => finishCmd d tag { status := st }
      | none => histStat { d with jobq := d.jobq ++ [jobOf c.words] }

/-- The job in a slot finishes and its command completes (R404). -/
def jobDone (d : Dev) (m : Mem) (s : Nat) : Dev × Mem :=
  match jobFinish d m s with
  | none => (d, m)
  | some (d, m, j, st) => (finishCmd d j.tag { status := st, len := 64 + 64 * j.recs, value := j.recs }, m)

/-- A running job is dropped without a result. -/
def dropJob (d : Dev) (s : Nat) : Dev :=
  match tat d.jobs s with
  | none => d
  | some j =>
    let d := setSgs d j.tgt 0 { (sgs d j.tgt 0) with en := false, pend := [], hist := [] }
    setJob { d with rods := d.rods.filter (fun k => !decide (k.station = j.stn)) } s none

/-- A PCIe link loss, hot reset or function-level reset: the host rings are disabled and their indices 0, commands end
without a completion, and what the host had claimed returns to PENDING (R344, R361, R571). -/
def hostReset (d : Dev) : Dev :=
  let d := (List.range 4).foldl dropJob d
  let d := histStat { d with jobq := [], hif := {} }
  let d := (List.range 5).foldl (fun d rr =>
    ringFull (setReg (setReg (pokeBit d (ringA rr 8) 31 false) (ringA rr 12) 0) (ringA rr 16) 0) rr) d
  evt (repend d [4]) pgHif 6

/-- Outstanding register-bulk transfers complete RESTARTED (R91). -/
def bulkRestarted (d : Dev) : Dev :=
  (d.hif.cmds.filter (fun c => c.fin.isNone && (decide (c.opcode = 1) || decide (c.opcode = 2)))).foldl
    (fun d c => finishCmd d c.tag { status := stRestarted }) d

end Sys2Proof.Machine
end

