-- ==== Sys2Proof/Machine/Encoder.lean ====
section
/-!
DEFINITION. Encoder channels: the count and its high-water mark, quadrature decoding, position steps and
their notes, SSI readings, the index check and the speed chain (R92 to R115).
-/

namespace Sys2Proof.Machine

/-- Encoder channel `c`. -/
def ench (d : Dev) (c : Nat) : EncCh := tat d.enc c

/-- Replace encoder channel `c`. -/
def setEnc (d : Dev) (c : Nat) (e : EncCh) : Dev := { d with enc := tset d.enc c e }

/-- Address of a register of channel `c`. -/
def encA (c o : Nat) : Nat := ra (pgEnc c) o

/-- Relay `r` is in use and feeds this part (R478). -/
def relayIn (d : Dev) (r : Nat) : Bool := rb d (ra pgFab (0x160 + 4 * r)) 31 && !rb d (ra pgFab (0x160 + 4 * r)) 30

/-- Channel `c` runs: its ENABLE is in force, or its relay feeds it (R127, R478). -/
def encOn (d : Dev) (c : Nat) : Bool := if c < 6 then fb d (encA c 0x100) 31 else relayIn d (c - 6)

/-- REVERSE: the count lies below the high-water mark (R99). -/
def encReverse (d : Dev) (c : Nat) : Bool := decide ((ench d c).count < (ench d c).hwm)

/-- Event `b` of channel `c` (R128). -/
def encEvt (d : Dev) (c b : Nat) : Dev := evt d (pgEnc c) b

/-- The count and the high-water mark take new values; REV_START and REV_END are raised as REVERSE sets and
clears (R99). -/
def moveCount (d : Dev) (c : Nat) (n hwm : Int) : Dev :=
  let was := encReverse d c
  let d := setEnc d c { (ench d c) with count := n, hwm := hwm }
  let now := encReverse d c
  if now && !was then encEvt d c 5 else if was && !now then encEvt d c 6 else d

/-- A count of one tick on an edge: the highest count reached is kept, and the interval since the edge before
is measured (R99, R112, R117). -/
def stepCount (d : Dev) (c : Nat) (by' : Int) : Dev :=
  let e := ench d c
  let n := e.count + by'
  let delta := e.tEdge.map (fun t => d.cycle - t)
  let d := moveCount d c n (max e.hwm n)
  setEnc d c { (ench d c) with
    tEdge := some d.cycle, delta := delta,
    edges := e.edges ++ [{ at' := d.cycle, n := n, delta := delta }] }

/-- Web-position move of a change of count on channel `c` (R30). -/
def webMove (d : Dev) (c : Nat) (delta : Int) : Int := roundShr (delta * 65536 * pitchOf d.force c) 40

/-- Stations in use on channel `c` (R332). -/
def stationsOn (f : Tbl Word) (c : Nat) : List Nat :=
  (List.range 8).filter (fun ss => vb f (ra pgPos (0x200 + 0x20 * ss)) 19 && decide (encOf f ss = c))

/-- One position note for each station on channel `c` (R332). -/
def noteAll (d : Dev) (kind c line : Nat) (move before after dev : Int) : Dev :=
  (stationsOn d.force c).foldl (fun d ss => pushNote d (noteRec d kind ss c line move before after dev)) d

/-- The line a note names as the last stamped on channel `c` before a step; free before any (R332, DESIGN CHOICE, log 22). -/
def lineBefore (d : Dev) (c : Nat) : Nat :=
  match tat d.pos.lastStamp c with
  | some st => st.sysLine
  | none => (Config.noLineYet d.cycle).toNat

/-- A jump of the count to `n`, with its note; the high-water mark moves with the count, and a preset sets it
to the new count (R98, R99, R104, R109, R218, R332). -/
def jumpCount (d : Dev) (c : Nat) (n : Int) (kind : Nat) (dev : Int) : Dev :=
  let e := ench d c
  let line := lineBefore d c
  let move := webMove d c (n - e.count)
  let d := noteAll d kind c line move e.count n dev
  let d := moveCount d c n (if kind = 3 then n else e.hwm + (n - e.count))
  let k := e.mark.count + 1
  setEnc d c { (ench d c) with
    mark := { before := some line, count := k },
    steps := (e.steps ++ [(k, move)]).drop (e.steps.length + 1 - 16),
    edges := e.edges ++ [{ at' := d.cycle, n := n, delta := none }] }

/-- The decoder's levels, after SWAP_AB (R95, R105). -/
def encAB (d : Dev) (c : Nat) : Bool × Bool :=
  let e := ench d c
  if fb d (encA c 0x100) 18 then (e.b, e.a) else (e.a, e.b)

/-- The tick of one filtered edge, from the levels before and after it, or none when DECODE counts no such
edge (R95). A leading B is forward (PRESUMED, log 23). -/
def quadTick (cfg : Word) (a0 a1 b1 : Bool) : Option Int :=
  let onA := a0 != a1
  let fwd := if onA then a1 != b1 else a1 == b1
  let fwd := if bitOf cfg 19 then !fwd else fwd
  let counts := match fld cfg 21 20 with
    | 0 => true
    | 1 => onA
    | _ => onA && a1
  if counts then some (if fwd then 1 else -1) else none

/-- The count follows its input: the channel is in use and not in LOS (R97). -/
def counting (d : Dev) (c : Nat) : Bool := encOn d c && !(ench d c).los

/-- The samples after which a raw input that now differs from its level is accepted (R93). -/
def acceptIn (filt run : Nat) : Nat := filt - run

/-- What one batch of equal samples does to one input: after how many samples its level changes, if it does,
the new run, and whether a pulse too short was discarded (R93). -/
structure Filtered where
  change : Option Nat
  run : Nat
  glitch : Bool
  deriving DecidableEq, Repr

/-- One input under the filter of `filt` samples, held at `v` for `n` samples (R93). -/
def filterInput (filt : Nat) (level : Bool) (run : Nat) (v : Bool) (n : Nat) : Filtered :=
  if v = level then { change := none, run := 0, glitch := decide (0 < run) }
  else if filt ≤ run + n then { change := some (acceptIn filt run), run := 0, glitch := false }
  else { change := none, run := run + n, glitch := false }

/-- Both levels change in one filtered sample: an illegal transition, adopted as the current state (R96). -/
def illegalEdge (d : Dev) (c : Nat) : Dev := encEvt (countBy d (encA c 0x138) 31 16 1) c 0

/-- LOS of an input (R97). -/
def setLos (d : Dev) (c : Nat) : Dev :=
  if (ench d c).los then d
  else raise (encEvt (setEnc d c { (ench d c) with los := true }) c 9) (pgEnc c) 0x20 2 4 c

/-- The input recovers: LOS clears and the decoder adopts its levels (R97). -/
def clearLos (d : Dev) (c : Nat) (a b : Bool) : Dev :=
  setEnc d c { (ench d c) with los := false, a := a, b := b, runA := 0, runB := 0 }

/-! ### Index (R105 to R110) -/

/-- Count in one byte of ENCcc_IDX_CNT (R127). -/
def idxCount (d : Dev) (c hi lo : Nat) : Dev := countBy d (encA c 0x12C) hi lo 1

/-- The index falls where GATE_STATE wants it (R105). -/
def idxGate (d : Dev) (c : Nat) : Bool :=
  let cfg := inForce d (encA c 0x120)
  let ab := encAB d c
  !bitOf cfg 27 || decide (fld cfg 29 28 = 2 * ab.1.toNat + ab.2.toNat)

/-- A checked outcome replaces a pending correction (R110). -/
def replaceCorr (d : Dev) (c : Nat) (new : Option Int) : Dev :=
  let e := ench d c
  let d := if e.corr.isSome then encEvt (idxCount d c 7 0) c 4 else d
  setEnc d c { (ench d c) with corr := new, corrDue := none }

/-- An accepted index captured at count `p` (R106 to R108, R110). -/
def takeIndex (d : Dev) (c : Nat) (p : Int) : Dev :=
  let e := ench d c
  let cfg := inForce d (encA c 0x120)
  let per := (inForce d (encA c 0x124)).toNat
  if per = 0 ∨ !e.idxRefValid then
    setEnc d c { e with idxRef := p, idxRefValid := true }
  else
    let k := roundDiv (p - e.idxRef) per
    let dv := p - (e.idxRef + k * per)
    let d := setReg d (encA c 0x128) (BitVec.ofInt 32 (satI dv (-2147483648) 2147483647))
    if fld cfg 31 30 = 0 then d
    else if dv.natAbs > fld cfg 15 0 then
      raise (encEvt (idxCount d c 31 24) c 3) (pgEnc c) 0x22 1 4 c
    else if dv = 0 then (if e.corr.isSome then replaceCorr d c none else d)
    else if fld cfg 31 30 = 1 then
      noteAll (encEvt (idxCount d c 23 16) c 1) 1 c d.pos.sysLine 0 p p dv
    else replaceCorr d c (some (-dv))

/-- A pending correction is dropped (R109). -/
def dropCorr (d : Dev) (c : Nat) : Dev := setEnc d c { (ench d c) with corr := none, corrDue := none }

/-! ### SSI (R100 to R104) -/

/-- Gray code to binary, most significant bit first (R102). -/
def grayDecode (n x : Nat) : Nat :=
  (List.range n).foldl (fun y i => y ^^^ (x >>> i)) 0 % 2 ^ n

/-- Clock periods of one frame (R100). -/
def ssiPeriods (cfg : Word) : Nat := fld cfg 31 26 + fld cfg 22 20 + (decide (fld cfg 24 23 ≠ 0)).toNat

/-- The reading a frame carries (R102). -/
def ssiReading (cfg : Word) (f : SsiFrame) : Nat :=
  let n := fld cfg 31 26
  let r := f.reading.toNat % 2 ^ n
  if bitOf cfg 25 then grayDecode n r else r

/-- The causes for which a frame is rejected, as bits of ENCcc_SSI_STAT (R101). `parity` is the parity bit as
received; it covers the position and status bits. -/
def ssiCauses (d : Dev) (c : Nat) (f : SsiFrame) : Nat :=
  let cfg := inForce d (encA c 0x140)
  let n := fld cfg 31 26
  let k := fld cfg 22 20
  let ones := popCount n (f.reading.toNat % 2 ^ n) + popCount k (f.status.toNat % 2 ^ k) + f.parity.toNat
  let par := match fld cfg 24 23 with
    | 1 => decide (ones % 2 = 1)
    | 2 => decide (ones % 2 = 0)
    | _ => false
  let err := bitOf cfg 19 && f.status.getLsbD 0
  let jump := match (ench d c).rPrev with
    | none => false
    | some p => decide ((toSigned n (wrapNat n ((ssiReading cfg f : Int) - p))).natAbs > (inForce d (encA c 0x14C)).toNat)
  par.toNat + 2 * err.toNat + 4 * (!f.released).toNat + 8 * jump.toNat

/-- A rejected frame; at STALE_N in a row the channel goes stale (R101, R104). -/
def ssiReject (d : Dev) (c causes : Nat) : Dev :=
  let a := encA c 0x144
  let e := ench d c
  let run := e.failRun + 1
  let d := setReg d a (reg d a ||| BitVec.ofNat 32 causes)
  let d := poke (countBy d a 31 16 1) a 15 8 (min run 255)
  let d := encEvt (setEnc d c { e with failRun := run }) c 10
  if run ≥ fld (inForce d (encA c 0x140)) 4 0 ∧ !e.stale then
    raise (encEvt (setEnc d c { (ench d c) with stale := true, spread := {} }) c 11) (pgEnc c) 0x21 2 4 c
  else d

/-- The extended position after an accepted reading (R102). -/
def ssiPos (n : Nat) (e : EncCh) (r : Nat) : Int :=
  match e.rPrev with
  | none => r
  | some p => e.pos + toSigned n (wrapNat n ((r : Int) - p))

/-! ### The speed chain (R112 to R115) -/

/-- Interpolated position at control-clock edge `t`, in 2^-16 tick (R112). -/
def speedX (es : List SpeedEdge) (base : Int) (t : Int) : Int :=
  match (es.filter (fun e => decide ((e.at' : Int) ≤ t))).getLast? with
  | none => base * 65536
  | some e =>
    let fr : Int := match e.delta with
      | none => 0
      | some w => if w = 0 then 0 else min 0xFFFF ((t - e.at') * 65536 / w)
    e.n * 65536 + fr

/-- v(t) of R112; before the alignment edge the chain holds zeros (R114). -/
def speedV (e : EncCh) (t : Int) : Int :=
  if t ≤ e.tAlign then 0 else speedX e.edges e.alignCount t - speedX e.edges e.alignCount (t - 1)

/-- Weight of v(t − i) in a third-order CIC of decimation `w`. -/
def cicWeight (w i : Nat) : Nat :=
  let tri := fun (k : Nat) => (k + 1) * (k + 2) / 2
  let at' := fun (k : Int) => if k < 0 then (0 : Int) else tri k.toNat
  (at' i - 3 * at' ((i : Int) - w) + 3 * at' ((i : Int) - 2 * w) - at' ((i : Int) - 3 * w)).toNat

/-- CIC output `j`, at edge t_align + j × D1 (R112). -/
def cicOut (e : EncCh) (w : Nat) (j : Int) : Int :=
  (List.range (3 * w - 2)).foldl (fun a i => a + (cicWeight w i : Int) * speedV e ((e.tAlign : Int) + j * w - i)) 0

/-- M, D1, D2 and the two responses of a speed chain (R112, R113). -/
structure SpeedCfg where
  m : Nat
  d2 : Nat
  fir : Nat
  res : Nat
  deriving DecidableEq, Repr

/-- The speed configuration in force of channel `c` (R127). -/
def speedCfg (d : Dev) (c : Nat) : SpeedCfg :=
  let w := inForce d (encA c 0x150)
  { m := fld w 23 20, d2 := [1, 2, 4, 4].getD (fld w 19 18) 1, fir := fld w 17 14, res := fld w 13 10 }

/-- speed[i] of R112, in 2^-16 ticks per second. -/
def firOut (e : EncCh) (g : SpeedCfg) (i : Int) : Int :=
  let s := (List.range 8).foldl (fun a k => a + rom g.fir 0 k * cicOut e (2 ^ g.m) (g.d2 * i - k)) 0
  roundShr (s * 400000000) (3 * g.m + 14)

/-- SPD_LAT (R113, DESIGN CHOICE, log 10). -/
def speedLat (d : Dev) (c : Nat) : Nat :=
  let g := speedCfg d c
  Config.speedLatency g.m g.d2 g.fir g.res

/-- The chain's output at instant `tau` (R113). -/
def speedAt (d : Dev) (c : Nat) (tau : Nat) : Int :=
  let e := ench d c
  let g := speedCfg d c
  let t : Int := 2 ^ g.m * g.d2
  let u : Int := (tau : Int) - e.tAlign - speedLat d c
  let i := u / t
  let ph := ((u - i * t) * 64 / t).toNat
  roundShr ((List.range 8).foldl (fun a k => a + rom g.res ph k * firOut e g (i - 3 + k)) 0) 14

/-- SPD_VALID: eight FIR outputs have come since the alignment (R114). -/
def speedValid (d : Dev) (c : Nat) : Bool :=
  let g := speedCfg d c
  fb d (encA c 0x150) 31 && decide (8 * (2 ^ g.m * g.d2) ≤ d.cycle - (ench d c).tAlign)

/-- One speed output at the present edge, with its limits (R113, R115). -/
def speedOut (d : Dev) (c : Nat) : Dev :=
  let v := speedAt d c d.cycle
  let d := setEnc d c { (ench d c) with speed := v, outAt := d.cycle }
  let hi := (inForce d (encA c 0x164)).toNat
  let lo := (inForce d (encA c 0x168)).toNat
  let d := if hi ≠ 0 ∧ v.natAbs > hi * 65536 then encEvt d c 7 else d
  if lo ≠ 0 ∧ v < lo * 65536 then encEvt d c 8 else d

/-- Reset the chain of channel `c` on the present edge (R114). -/
def alignCh (d : Dev) (c : Nat) : Dev :=
  let e := ench d c
  setEnc d c { e with
    tAlign := d.cycle, alignCount := e.count, edges := e.edges.drop (e.edges.length - 1), outAt := d.cycle }

/-- An alignment command: every chain whose ALIGN_EN is set; the consumer ENC_ALIGN is busy for two cycles after it
(R114, R548). -/
def alignAll (d : Dev) : Dev :=
  let d := (List.range 8).foldl (fun d c => if fb d (encA c 0x150) 30 then alignCh d c else d) d
  { d with wkr := { d.wkr with busy := tset d.wkr.busy 0x020 (d.cycle + 2) } }

end Sys2Proof.Machine
end

