-- ==== Sys2Proof/Machine/Compare.lean ====
section
/-!
DEFINITION. Compare units: the grid points they test, hits, points missed, late pulses, and the triggers they
ask the outputs for (R117 to R122, R694).
-/

namespace Sys2Proof.Machine

/-- A trigger on its way to being issued: the compare unit that asked for it, if any, the output, if it drives
one, and the tick, fraction and late flag of its stamp (R53). -/
structure Fire where
  unit : Option Nat := none
  out : Option Nat := none
  tick : Int := 0
  frac : Nat := 0
  late : Bool := false
  deriving DecidableEq, Repr

/-- Compare unit `u`. -/
def cmpu (d : Dev) (u : Nat) : CmpUnit := tat d.cmp u

/-- Replace compare unit `u`. -/
def setCmp (d : Dev) (u : Nat) (x : CmpUnit) : Dev := { d with cmp := tset d.cmp u x }

/-- Address of a register of unit `u` (R129). -/
def cmpA (u o : Nat) : Nat := ra pgCmp (0x100 + 0x40 * u + o)

/-- Unit `u` is in use (R129). -/
def cmpOn (f : Tbl Word) (u : Nat) : Bool := vb f (cmpA u 0) 31

/-- The channel unit `u` watches (R129). -/
def cmpCh (f : Tbl Word) (u : Nat) : Nat := vf f (cmpA u 0) 29 27

/-- SPACING in 2^-32 tick (R118). -/
def cmpSpacing (f : Tbl Word) (u : Nat) : Int := (vw f (cmpA u 0x14)).toNat * 2 ^ 32 + (vw f (cmpA u 0x10)).toNat

/-- PHASE in 2^-32 tick. -/
def cmpPhase (f : Tbl Word) (u : Nat) : Int := (vw f (cmpA u 0x1C)).toInt * 2 ^ 32 + (vw f (cmpA u 0x18)).toNat

/-- The written grid point in 2^-32 tick (R694). -/
def cmpWritten (f : Tbl Word) (u : Nat) : Int :=
  (toSigned 64 ((vw f (cmpA u 0x0C)).toNat * 2 ^ 32 + (vw f (cmpA u 8)).toNat)) * 2 ^ 32 + (vw f (cmpA u 4)).toNat

/-- The grid point the unit tests: NEXT + PHASE (R117). -/
def gridPoint (d : Dev) (u : Nat) : Int := (cmpu d u).next + cmpPhase d.force u

/-- The output that unit `u` feeds: its own, while that takes compare units (R123). -/
def cmpOut (f : Tbl Word) (u : Nat) : Option Nat :=
  if u < 16 ∧ vf f (ra pgTrg (0x100 + 0x10 * u)) 28 27 = 0 then some u else none

/-- The camera that unit `u` drives (R122). -/
def cmpCamera (f : Tbl Word) (u : Nat) : Option Nat := (cmpOut f u).filter (fun n => portOn f n)

/-- Web position of a tick position of camera port `n` under the values in force (R24, R25). -/
def camWeb (f : Tbl Word) (n : Nat) (tick : Int) (frac : Nat) : Int :=
  match stationOf f n with
  | none => webInvalid
  | some ss =>
    webPos tick frac (pitchOf f (encOf f ss)) (stnOffset f ss + camOffset f n)

/-- A grid point as it would have been stamped for camera port `n` (R122). -/
def missedStamp (d : Dev) (n : Nat) (g : Int) : Stamp :=
  { web := camWeb d.force n (g / 2 ^ 32) ((g % 2 ^ 32).toNat / 65536), time := timeStamp d, epoch := d.pos.epoch,
    sysLine := d.pos.sysLine, cycle := d.cycle, ver := d.ver }

/-- The TRIGGER_MISSED gap of `k` points from `g0` to `g1` of the camera of unit `u` (R122, R328). -/
def missedGap (d : Dev) (u k : Nat) (g0 g1 : Int) : Dev :=
  match cmpCamera d.force u with
  | none => d
  | some n =>
    match ctxOfPort d.force n with
    | none => d
    | some (w, x) =>
      let o := ownedSpan d.force w x
      let line := (tat d.skein n).nextLine
      pushGap d (gapRec d {
        cause := 0x0A, left := o.1, width := o.2 + 1 - o.1, station := (stationOf d.force n).getD 0,
        firstNo := line, lastNo := line, first := missedStamp d n g0, last := missedStamp d n g1 } k) d.pos.sysLine

/-- Wicker producer MISSED_ANY (R129, R546). -/
def missedAny (d : Dev) : Dev := firePulse d 0x1048

/-- Wicker producer LATE_ANY (R129, R546). -/
def lateAny (d : Dev) : Dev := firePulse d 0x1049

/-- MIN_INTERVAL keeps the unit from a trigger on the present edge (R117). -/
def tooSoon (d : Dev) (u : Nat) : Bool :=
  match (cmpu d u).tFire with
  | none => false
  | some t => decide (d.cycle < t + vf d.force (cmpA u 0) 15 0)

/-- The late pulse of unit `u` (R122): stamped with the count at this instant and fraction 0. -/
def fireLate (d : Dev) (u : Nat) : Dev × List Fire :=
  let d := setCmp d u { (cmpu d u) with lateWait := false, tFire := some d.cycle }
  let d := countBy d (cmpA u 0x34) 31 16 1
  (lateAny d, [{ unit := some u, out := cmpOut d.force u, tick := (ench d (cmpCh d.force u)).count, late := true }])

/-- Points of unit `u` are missed: they count, and with CATCHUP one late pulse is issued or waits (R122). -/
def missPoints (d : Dev) (u k : Nat) (g0 g1 : Int) (gap late : Bool) : Dev × List Fire :=
  let d := missedAny (countBy d (cmpA u 0x2C) 31 0 k)
  let d := if gap then missedGap d u k g0 g1 else d
  if late && vb d.force (cmpA u 0) 30 && !(cmpu d u).lateWait && !encReverse d (cmpCh d.force u) then
    if tooSoon d u then (setCmp d u { (cmpu d u) with lateWait := true }, []) else fireLate d u
  else (d, [])

/-- ONESHOT clears the unit's ENABLE after a hit (R120). -/
def oneshotOff (d : Dev) (u : Nat) : Dev :=
  setForce (pokeBit d (cmpA u 0) 31 false) (cmpA u 0) (putBit (inForce d (cmpA u 0)) 31 false)

/-- fire(t) of R117 on the present edge. -/
def fireUnit (d : Dev) (u : Nat) : Dev × List Fire :=
  let g := gridPoint d u
  let x := cmpu d u
  let next := x.next + cmpSpacing d.force u
  if tooSoon d u then
    missPoints (setCmp d u { x with last := g / 2 ^ 32, next := next, due := none }) u 1 g g true true
  else
    let one := vb d.force (cmpA u 0) 26
    let d := setCmp d u { x with
      last := g / 2 ^ 32, next := if one then x.next else next, due := none, tFire := some d.cycle }
    let d := if one then oneshotOff d u else d
    let d := evt (wrapBy d (cmpA u 0x30) 31 0 1) pgCmp u
    (d, [{ unit := some u, out := cmpOut d.force u, tick := g / 2 ^ 32, frac := (g % 2 ^ 32).toNat / 65536 }])

/-- Units in use on channel `c`. -/
def unitsOn (f : Tbl Word) (c : Nat) : List Nat :=
  (List.range 24).filter (fun u => cmpOn f u && decide (cmpCh f u = c))

/-- A forward step as unit `u` sees it: the point fires, or its instant within the tick is predicted; while
REVERSE is set the unit is held (R31, R117, R121). -/
def unitForward (d : Dev) (c u : Nat) : Dev × List Fire :=
  let n := (ench d c).count * 2 ^ 32
  let g := gridPoint d u
  if encReverse d c then (setCmp d u { (cmpu d u) with due := none }, [])
  else if g ≤ n then fireUnit d u
  else
    match (ench d c).delta with
    | none => (d, [])
    | some w =>
      if g < n + 2 ^ 32 ∧ w ≤ 65535 then
        let due := d.cycle + (roundShr ((g - n) * w) 32).toNat
        if due = d.cycle then fireUnit d u else (setCmp d u { (cmpu d u) with due := some due }, [])
      else (d, [])

/-- Do one thing for each unit of a list, gathering what fires. -/
def eachUnit (act : Dev → Nat → Dev × List Fire) : List Nat → Dev → Dev × List Fire
  | [], d => (d, [])
  | u :: us, d =>
    let r := act d u
    let q := eachUnit act us r.1
    (q.1, r.2 ++ q.2)

/-- A backward step cancels what is predicted; when REVERSE is set, late pulses not yet issued are dropped
(R117, R121, R122). -/
def unitBackward (d : Dev) (c u : Nat) : Dev × List Fire :=
  let x := cmpu d u
  (setCmp d u { x with due := none, lateWait := x.lateWait && !encReverse d c }, [])

/-- Every unit of channel `c` sees a step of its count (R117). -/
def unitsStep (d : Dev) (c : Nat) (fwd : Bool) : Dev × List Fire :=
  eachUnit (fun d u => if fwd then unitForward d c u else unitBackward d c u) (unitsOn d.force c) d

/-- A commit or a jump of the count leaves grid points behind, or one just at the count (R122). -/
def unitBehind (jump : Bool) (d : Dev) (u : Nat) : Dev × List Fire :=
  let c := cmpCh d.force u
  let d := setCmp d u { (cmpu d u) with due := none }
  let n := (ench d c).count * 2 ^ 32
  let g := gridPoint d u
  let s := cmpSpacing d.force u
  let k := if g < n ∧ 0 < s then ((n - g - 1) / s + 1).toNat else 0
  let d := setCmp d u { (cmpu d u) with next := (cmpu d u).next + k * s }
  let hit := decide (gridPoint d u = n) && !encReverse d c && decide ((cmpu d u).tFire ≠ some d.cycle)
  let a := if k = 0 then (d, []) else missPoints d u k g (g + (k - 1 : Int) * s) jump (!(hit && !tooSoon d u))
  if hit then
    let b := fireUnit a.1 u
    (b.1, a.2 ++ b.2)
  else a

/-- A jump of the count of channel `c` as its units see it (R119, R122). -/
def unitsJump (d : Dev) (c : Nat) : Dev × List Fire := eachUnit (unitBehind true) (unitsOn d.force c) d

/-- The trigger of unit `u` makes the corrections that wait for it due (R109). -/
def lineCmpDue (d : Dev) (u : Nat) : Dev :=
  (List.range 4).foldl (fun d c =>
    if (ench d c).corr.isSome && decide (ff d (encA c 0x120) 23 19 = u) then
      setEnc d c { (ench d c) with corrDue := some d.cycle }
    else d) d

end Sys2Proof.Machine
end

