-- ==== Sys2Proof/Machine/Discovery.lean ====
section
/-!
DEFINITION. Discovery on the fabric: HELLO and ASSIGN frames, node IDs, masters, span conflicts, and the
routing tables Benath computes (R463 to R471).
-/

namespace Sys2Proof.Machine

/-- The owned columns of a station's enabled cameras: lowest and highest (R463). -/
def stationSpan (f : Tbl Word) (ss : Nat) : Option (Nat × Nat) :=
  let spans := (List.range 16).filterMap (fun n =>
    if vb f (ra pgPos (0x200 + 0x20 * ss)) n && portOn f n then
      match ctxOfPort f n with
      | none => none
      | some (w, x) => let o := ownedSpan f w x; if o.1 ≤ o.2 then some o else none
    else none)
  match spans with
  | [] => none
  | s :: r => some (r.foldl (fun a b => (min a.1 b.1, max a.2 b.2)) s)

/-- Whether station `ss` is tracked (R322). -/
def tracked (f : Tbl Word) (ss : Nat) : Bool := vb f (ra pgTrk (0x200 + 0x20 * ss)) 31

/-- The partner word of this node's HELLO (R463). -/
def partnerWord (d : Dev) : Dword :=
  dpack ((List.range 5).map (fun p =>
    (8 * p, 8, rf d (fabStatA p) 13 8 + 64 * (rb d (fabStatA p) 16).toNat + 128 * (fabUp d p).toNat)))

/-- This node as its own HELLO describes it. -/
def selfNode (d : Dev) : SeenNode :=
  let c := reg d (ra pgFab 0x100)
  { serial := mySerial d, id := myId d, idValid := idValid d, master := bitOf c 29, timeSrc := bitOf c 14,
    head := fld c 25 22, meshX := rf d (ra pgFab 0x170) 2 0, meshY := rf d (ra pgFab 0x170) 6 4,
    major := d.img.fab / 16, w3 := (partnerWord d).toNat,
    stnEn := (List.range 8).foldl (fun a s => a + (tracked d.force s).toNat * 2 ^ s) 0,
    spans := (List.range 8).map (fun s => (stationSpan d.force s).getD (0, 0)) }

/-- The payload of a HELLO sent on port `p` (R463). -/
def helloPayload (d : Dev) (p : Nat) : List Dword :=
  let n := selfNode d
  let c := reg d (ra pgFab 0x100)
  dpack [(60, 4, 3), (54, 6, n.id), (53, 1, n.idValid.toNat), (52, 1, n.master.toNat), (51, 1, n.timeSrc.toNat),
      (47, 4, n.head), (44, 3, p), (42, 2, fld c 27 26), (36, 3, n.meshY), (32, 3, n.meshX),
      (24, 8, d.node.helloSeq), (16, 8, d.img.fab), (0, 8, n.stnEn)] ::
    BitVec.ofNat 64 n.serial :: BitVec.ofNat 64 n.w3 ::
    n.spans.map (fun s => dpack [(20, 20, s.2), (0, 20, s.1)])

/-- Send a HELLO with a new HELLO_SEQ on every up port but the Pairing link (R443, R464). -/
def sendHello (d : Dev) : Dev :=
  let d := { d with node := { d.node with helloSeq := (d.node.helloSeq + 1) % 256 } }
  (List.range 5).foldl (fun d p =>
    if fabUp d p && !isPairPort d p then
      sendOn d p { f := { linkFrame d (helloPayload d p) with bcast := true }, arr := none, uid := 0 }
    else d) d

/-- What a HELLO says (R463). -/
def parseHello (d : Dev) (ws : List Dword) : SeenNode :=
  let w := dwAt ws 0
  { serial := (dwAt ws 1).toNat, id := dfld w 59 54, idValid := decide (dfld w 53 53 = 1),
    master := decide (dfld w 52 52 = 1), timeSrc := decide (dfld w 51 51 = 1), head := dfld w 50 47,
    meshX := dfld w 34 32, meshY := dfld w 38 36, major := dfld w 23 20, stnEn := dfld w 7 0,
    w3 := (dwAt ws 2).toNat,
    spans := (List.range 8).map (fun s => (dfld (dwAt ws (3 + s)) 19 0, dfld (dwAt ws (3 + s)) 39 20)),
    lastAt := d.cycle }

/-- One second in control-clock cycles. -/
def secondCycles : Nat := 400000000

/-- Forward a HELLO or ASSIGN not seen in the last second on every other up port but the Pairing link
(R464, R469). -/
def flood (d : Dev) (p key : Nat) (f : Frame) : Dev :=
  let recent := d.node.flooded.filter (fun e => decide (d.cycle < e.2 + secondCycles))
  if recent.any (fun e => decide (e.1 = key)) then { d with node := { d.node with flooded := recent } }
  else
    let d := { d with node := { d.node with flooded := recent ++ [(key, d.cycle)] } }
    if f.hops = 0 then count d (ra (pgFabPort p) 0x11C)
    else
      (List.range 5).foldl (fun d o =>
        if o ≠ p ∧ fabUp d o ∧ !isPairPort d o then
          sendOn d o { f := { f with hops := f.hops - 1 }, arr := none, uid := 0 }
        else d) d

/-- The node of lowest ID that reports MASTER, this one included (R480). -/
def masterId (d : Dev) : Option Nat :=
  let ms := ((selfNode d :: d.node.seen).filter (fun n => n.master && n.idValid)).map (fun n => n.id)
  match ms with
  | [] => none
  | m :: r => some (r.foldl min m)

/-- This node acts as the master: it has MASTER, and no node of lower ID reports it (R480). -/
def isMaster (d : Dev) : Bool :=
  fabOn d && idValid d && rb d (ra pgFab 0x100) 29 && decide (masterId d = some (myId d))

/-- FAB_SEEN, NODES, MASTER_ID and MASTER_CONFLICT follow what has been heard (R464, R480, R489). -/
def refreshSeen (d : Dev) : Dev :=
  let valid := d.node.seen.filter (fun n => n.idValid)
  let has := fun k => valid.any (fun n => decide (n.id = k))
  let word := fun b => (List.range 32).foldl (fun a k => a + (has (b + k)).toNat * 2 ^ k) 0
  let d := setReg (setReg d (ra pgFab 0x118) (BitVec.ofNat 32 (word 0))) (ra pgFab 0x11C) (BitVec.ofNat 32 (word 32))
  let a := ra pgFab 0x104
  let d := poke d a 22 16 (min 64 (d.node.seen.length + 1))
  let d := poke d a 13 8 ((masterId d).getD 0)
  let clash := rb d (ra pgFab 0x100) 29 && d.node.seen.any (fun n => n.master)
  if clash && !rb d a 28 then evt (pokeBit d a 28 true) pgFab 2 else pokeBit d a 28 clash

/-- This node withdraws from an ID that a node of lower serial number claims (R466). -/
def withdrawId (d : Dev) : Dev :=
  let a := ra pgFab 0x104
  evt (pokeBit (pokeBit d a 31 false) a 29 true) pgFab 1

/-- Node `serial` claims ID `k` (R466). -/
def checkClaim (d : Dev) (serial k : Nat) : Dev :=
  if idValid d && decide (k = myId d) && decide (serial ≠ mySerial d) && decide (mySerial d > serial)
  then withdrawId d else d

/-- Two nodes of one head show overlapping owned extents of one station: a span conflict, acted on as R236
says (R468). -/
def spanClash (d : Dev) (n : SeenNode) : Bool :=
  let me := selfNode d
  decide (n.head = me.head) && (List.range 8).any (fun s =>
    let a := me.spans.getD s (0, 0)
    let b := n.spans.getD s (0, 0)
    me.stnEn.testBit s && n.stnEn.testBit s && decide (a.1 ≤ b.2 ∧ b.1 ≤ a.2) && (stationSpan d.force s).isSome)

/-- STITCH_STAT.SPAN_CONFLICT follows the nodes heard (R236). -/
def refreshSpan (d : Dev) : Dev :=
  let clash := d.node.seen.any (spanClash d)
  let a := ra pgStitch 0x108
  if clash && !rb d a 31 then evt (pokeBit d a 31 true) pgStitch 1 else pokeBit d a 31 clash

/-- A HELLO arrives on port `p` (R464 to R468). -/
def helloArrive (d : Dev) (p : Nat) (f : Frame) : Dev :=
  let n := parseHello d f.payload
  if n.serial = mySerial d then d
  else
    let d := flood d p (n.serial * 512 + 2 * dfld (dwAt f.payload 0) 31 24) f
    let new := !d.node.seen.any (fun o => decide (o.serial = n.serial))
    let others := d.node.seen.filter (fun o => decide (o.serial ≠ n.serial))
    let d := { d with node := { d.node with seen := others ++ [n], newAt := if new then d.cycle else d.node.newAt } }
    let d := if n.idValid then checkClaim d n.serial n.id else d
    refreshSpan (refreshSeen d)

/-- This node takes an ID (R465). -/
def takeId (d : Dev) (k : Nat) : Dev :=
  let a := ra pgFab 0x104
  let d := poke d a 5 0 k
  let d := pokeBit (pokeBit (pokeBit (pokeBit d a 31 true) a 30 false) a 29 false) a 27 false
  refreshSeen (evt d pgFab 0)

/-- An ASSIGN arrives on port `p` (R465, R466). -/
def assignArrive (d : Dev) (p : Nat) (f : Frame) : Dev :=
  let k := dfld (dwAt f.payload 0) 5 0
  let serial := (dwAt f.payload 1).toNat
  let d := flood d p ((serial * 64 + k) * 512 + 1) f
  if serial = mySerial d then (if idValid d then d else takeId d k) else checkClaim d serial k

/-- Send an ASSIGN on every up port but the Pairing link (R465). -/
def sendAssign (d : Dev) (serial k : Nat) : Dev :=
  (List.range 5).foldl (fun d p =>
    if fabUp d p && !isPairPort d p then
      sendOn d p { f := { linkFrame d [dpack [(60, 4, 4), (0, 6, k)], BitVec.ofNat 64 serial] with bcast := true },
                   arr := none, uid := 0 }
    else d) d

/-- The lowest ID that no known node holds (R465). -/
def freeId (d : Dev) : Option Nat :=
  (List.range 64).find? (fun k =>
    !((selfNode d :: d.node.seen).any (fun n => n.idValid && decide (n.id = k))))

/-- The leader gives the nodes without an ID, in ascending serial order, the lowest free ones (R465, R466). -/
def assignAll : List Nat → Dev → Dev
  | [], d => d
  | serial :: rest, d =>
    match freeId d with
    | none =>
      let d := if serial = mySerial d ∧ !rb d (ra pgFab 0x104) 27 then evt (pokeBit d (ra pgFab 0x104) 27 true) pgFab 7 else d
      assignAll rest d
    | some k =>
      let d := if serial = mySerial d then takeId d k
        else
          let seen := d.node.seen.map (fun n => if n.serial = serial then { n with id := k, idValid := true } else n)
          sendAssign { d with node := { d.node with seen := seen } } serial k
      assignAll rest d

/-- Serial numbers of the known nodes without an ID, this one included, rising. -/
def unassigned (d : Dev) : List Nat :=
  isort (fun a b => decide (a ≤ b)) (((selfNode d :: d.node.seen).filter (fun n => !n.idValid)).map (fun n => n.serial))

/-- Whether this node's serial number is the lowest heard (R465). -/
def lowestSerial (d : Dev) : Bool := d.node.seen.all (fun n => decide (mySerial d < n.serial))

/-- A known node by ID. -/
def nodeOf (d : Dev) (k : Nat) : Option SeenNode :=
  (selfNode d :: d.node.seen).find? (fun n => n.idValid && decide (n.id = k))

/-- The partner of a node's port while that link is up (R463 word 3). -/
def partnerOf (n : SeenNode) (p : Nat) : Option Nat :=
  let b := natField n.w3 (8 * p + 7) (8 * p)
  if b ≥ 192 then some (b % 64) else none

/-- The ring's spare link as the lowest-ID node and the node on its port 1, while no other link has failed
(R471). -/
def spareLink (d : Dev) : Option (Nat × Nat) :=
  let ns := (selfNode d :: d.node.seen).filter (fun n => n.idValid)
  if rf d (ra pgFab 0x100) 27 26 ≠ 1 then none
  else
    let lo := ns.foldl (fun a n => min a n.id) 64
    match (nodeOf d lo).bind (fun n => partnerOf n 1) with
    | none => none
    | some x =>
      let others := ns.all (fun n =>
        ((partnerOf n 0).isSome || decide (n.id = x)) && ((partnerOf n 1).isSome || decide (n.id = lo)))
      if others then some (lo, x) else none

/-- Node IDs reached from `k` through port `p` (0 or 1) of each node in turn, along the line (R471). -/
def chain (d : Dev) (sp : Option (Nat × Nat)) (p : Nat) : Nat → Nat → List Nat
  | 0, _ => []
  | n + 1, k =>
    let spare := match sp with
      | none => false
      | some (lo, x) => decide ((p = 1 ∧ k = lo) ∨ (p = 0 ∧ k = x))
    if spare then []
    else
      match (nodeOf d k).bind (fun m => partnerOf m p) with
      | none => []
      | some j => j :: chain d sp p n j

/-- The mesh port from one coordinate toward another, X first (R471). -/
def meshPort (x y tx ty : Nat) : Option Nat :=
  if tx > x then some 0 else if tx < x then some 1 else if ty > y then some 2 else if ty < y then some 3 else none

/-- Whether every link of the mesh route from node `k` to node `t` is up (R471). -/
def meshReach (d : Dev) (t : Nat) : Nat → Nat → Bool
  | 0, _ => false
  | n + 1, k =>
    if k = t then true
    else
      match nodeOf d k, nodeOf d t with
      | some a, some b =>
        match (meshPort a.meshX a.meshY b.meshX b.meshY).bind (partnerOf a) with
        | none => false
        | some j => meshReach d t n j
      | _, _ => false

/-- Route entry for node `k` as Benath computes it; the second part says that the node is unreachable on a
mesh (R471). -/
def computeRoute (d : Dev) (c0 c1 : List Nat) (k : Nat) : Nat × Bool :=
  if idValid d && decide (k = myId d) then (5, false)
  else if rf d (ra pgFab 0x100) 27 26 = 2 then
    match nodeOf d k with
    | none => (15, false)
    | some b =>
      let me := selfNode d
      if meshReach d k 64 (myId d) then ((meshPort me.meshX me.meshY b.meshX b.meshY).getD 15, false) else (15, true)
  else if c0.contains k then (0, false)
  else if c1.contains k then (1, false)
  else (15, false)

/-- Broadcast mask of table `t` as Benath computes it (R471). -/
def computeBcast (d : Dev) (sp0 sp1 : Bool) (t : Nat) : Nat :=
  let up := fun p => fabUp d p && !(decide (p = 0) && sp0) && !(decide (p = 1) && sp1)
  let ps : List Nat :=
    if rf d (ra pgFab 0x100) 27 26 = 2 then
      (match t with
        | 0 => [1, 2, 3] | 1 => [0, 2, 3] | 2 => [3] | 3 => [2] | 5 => [0, 1, 2, 3] | _ => [])
    else (match t with | 0 => [1] | 1 => [0] | 5 => [0, 1] | _ => [])
  let out := (ps.filter (fun p => up p)).foldl (fun a p => a + 2 ^ p) 0
  if t < 4 then out + 32 else out

/-- Benath computes the tables and masks, writes them at once and raises TOPO_CHANGE (R470, R471). -/
def computeTables (d : Dev) : Dev :=
  let sp := spareLink d
  let me := myId d
  let sp1 := idValid d && decide (sp.map (fun s => s.1) = some me)
  let sp0 := idValid d && decide (sp.map (fun s => s.2) = some me)
  let c0 := chain d sp 0 64 me
  let c1 := (chain d sp 1 64 me).filter (fun k => !c0.contains k)
  let rs := (List.range 64).map (computeRoute d c0 c1)
  let word := fun k => (List.range 8).foldl (fun a j => a + (rs.getD (8 * k + j) (15, false)).1 * 16 ^ j) 0
  let masks := (List.range 6).map (computeBcast d sp0 sp1)
  let d := (List.range 48).foldl (fun d i => setReg d (ra pgFab (0x200 + 4 * i)) (BitVec.ofNat 32 (word (i % 8)))) d
  let d := (List.range 6).foldl (fun d t => setReg d (ra pgFab (0x2C0 + 4 * t)) (BitVec.ofNat 32 (masks.getD t 0))) d
  let un := fun b => (List.range 32).foldl (fun a k => a + ((rs.getD (b + k) (15, false)).2).toNat * 2 ^ k) 0
  let d := setReg (setReg d (ra pgFab 0x120) (BitVec.ofNat 32 (un 0))) (ra pgFab 0x124) (BitVec.ofNat 32 (un 32))
  let d := pokeBit (pokeBit d (fabStatA 0) 17 sp0) (fabStatA 1) 17 sp1
  switchTables (evt d pgFab 3)

end Sys2Proof.Machine
end

