-- ==== Sys2Proof/Machine/Check.lean ====
section
/-!
DEFINITION. What a commit refuses: for each rule that refuses values, the pages and registers concerned. A
group is refused when a rule fails and one of those pages is in the group (R68).
-/

namespace Sys2Proof.Machine

/-- A failed rule: the registers concerned, as page and offset, the one to blame first. -/
abbrev Fault' := List (Nat × Nat)

/-- One fault if `bad`. -/
def faultIf (bad : Bool) (at' : Fault') : List Fault' := if bad then [at'] else []

/-- The software floor of the bound group at offset `o` of page `pg` lies above its ceiling (R80). -/
def boundOrder (f : Tbl Word) (pg o : Nat) : List Fault' :=
  match loopGroup (ra pg o) with
  | none => []
  | some (_, _, _, sgn) =>
    faultIf (decide (boundInt sgn (vw f (ra pg o)) > boundInt sgn (vw f (ra pg (o + 4))))) [(pg, o)]

/-- Ports in use. -/
def portsOn (f : Tbl Word) : List Nat := (List.range 16).filter (fun n => portOn f n)

/-- Stations, references and the ports they hold (R58). -/
def checkPos (f : Tbl Word) : List Fault' :=
  let mask := fun ss => vf f (ra pgPos (0x200 + 0x20 * ss)) 15 0
  (List.range 8).flatMap (fun ss =>
    faultIf ((List.range ss).any (fun t => decide (mask t &&& mask ss ≠ 0))) [(pgPos, 0x200 + 0x20 * ss)]) ++
  faultIf (!(mask (vf f (ra pgPos 0x100) 2 0)).testBit (vf f (ra pgPos 0x100) 11 8)) [(pgPos, 0x100)] ++
  (portsOn f).flatMap (fun n => faultIf (stationOf f n).isNone [(pgSkein n, 0x100), (pgPos, 0x200)])

/-- Incremental channel `c` (R109, R111, R127). -/
def checkInc (f : Tbl Word) (c : Nat) : List Fault' :=
  let pg := pgEnc c
  let cfg := vw f (ra pg 0x100)
  let ix := vw f (ra pg 0x120)
  let u := fld ix 23 19
  faultIf (decide (fld cfg 27 24 < 1 ∨ 8 < fld cfg 27 24) || decide (fld cfg 21 20 = 3)) [(pg, 0x100)] ++
  faultIf (decide (fld ix 31 30 = 3)) [(pg, 0x120)] ++
  faultIf (decide (fld ix 31 30 = 2) && !(decide (u < 24) && cmpOn f u && decide (cmpCh f u = c)))
    [(pg, 0x120), (pgCmp, 0x100 + 0x40 * (u % 24))]

/-- SSI channel `c` (R100, R103). -/
def checkSsi (f : Tbl Word) (c : Nat) : List Fault' :=
  let pg := pgEnc c
  let cfg := vw f (ra pg 0x140)
  let tm := vw f (ra pg 0x148)
  let bad := decide (fld cfg 15 5 < 19) || decide (fld cfg 31 26 < 8 ∨ 32 < fld cfg 31 26) ||
    decide (fld cfg 22 20 > 4) || (bitOf cfg 19 && decide (fld cfg 22 20 = 0)) || decide (fld cfg 24 23 = 3)
  faultIf bad [(pg, 0x140)] ++
  faultIf (decide (fld tm 15 0 * 40 < ssiPeriods cfg * 2 * (fld cfg 15 5 + 1) + fld tm 31 16 * 40)) [(pg, 0x148)] ++
  faultIf (decide ((vw f (ra pg 0x14C)).toNat > 4 * fld tm 15 0)) [(pg, 0x14C)]

/-- Encoder channel `c`. -/
def checkEnc (f : Tbl Word) (c : Nat) : List Fault' :=
  (if c < 4 then checkInc f c else if c < 6 then checkSsi f c else []) ++
  faultIf (decide (vf f (encA c 0x150) 19 18 = 3)) [(pgEnc c, 0x150)]

/-- Compare units and trigger outputs (R118, R123). -/
def checkCmp (f : Tbl Word) : List Fault' :=
  (List.range 24).flatMap (fun u => faultIf (decide (cmpSpacing f u < 2 ^ 32)) [(pgCmp, 0x114 + 0x40 * u)]) ++
  (List.range 16).flatMap (fun n =>
    faultIf (decide ((vw f (ra pgTrg (0x104 + 0x10 * n))).toNat < 667)) [(pgTrg, 0x104 + 0x10 * n)])

/-- Camera port `n` (R80, R133, R142, R168, R175); while the part is not in Run no port is enabled (R573). -/
def checkSkein (inRun : Bool) (fo f : Tbl Word) (n : Nat) : List Fault' :=
  let pg := pgSkein n
  let lanes := vf f (ra pg 0x100) 30 28
  let map := (List.range lanes).map (fun k => vf f (ra pg 0x104) (3 * k + 2) (3 * k))
  let len := vf f (ra pg 0x108) 16 0
  let sw := vw f (ra pg 0x110)
  let wd := (vw f (ra pg 0x114)).toNat
  faultIf (decide (lanes = 0 ∨ lanes = 7) || (!inRun && portOn f n && !portOn fo n)) [(pg, 0x100)] ++
  faultIf (map.any (fun k => decide (k > 5)) || decide (map.eraseDups.length ≠ map.length)) [(pg, 0x104)] ++
  faultIf (decide (len = 0 ∨ len > 32768) || decide (vf f (ra pg 0x108) 31 28 > 6)) [(pg, 0x108)] ++
  faultIf (decide (fld sw 15 0 > fld sw 31 16)) [(pg, 0x110)] ++
  faultIf (decide (wd ≤ fld sw 31 16) || decide (wd = 0)) [(pg, 0x114)] ++
  boundOrder f pg 0x180 ++ boundOrder f pg 0x190

/-- The ports that wale `w` names, with their contexts (R160, R161). -/
def portsOfWale (f : Tbl Word) (w : Nat) : List (Nat × Nat) :=
  (List.range 2).filterMap (fun x => (portOfCtx f w x).map (fun n => (x, n)))

/-- The pages a port and its wale concern. -/
def portPages (n w : Nat) : Fault' := [(pgIn w, 0x100), (pgSkein n, 0x100)]

/-- Which ports feed which wales (R160, R161). -/
def checkIn (f : Tbl Word) : List Fault' :=
  (List.range 16).flatMap (fun w =>
    let ps := portsOfWale f w
    faultIf (ps.any (fun p => decide (p.2 / 4 ≠ w / 4)) || (decide (ps.length = 2) && decide (ps.map (fun p => p.2) ≠ (ps.map (fun p => p.2)).eraseDups)))
      [(pgIn w, 0x100)] ++
    (if ps.length = 2 then ps.flatMap (fun p =>
      faultIf (decide (vf f (ra (pgSkein p.2) 0x108) 16 0 > 16384)) [(pgSkein p.2, 0x108), (pgIn w, 0x100)]) else [])) ++
  (portsOn f).flatMap (fun n =>
    let ws := (List.range 16).filter (fun w => (portsOfWale f w).any (fun p => decide (p.2 = n)))
    faultIf (decide (ws.length ≠ 1)) ((ws.map (fun w => (pgIn w, 0x100))) ++ [(pgSkein n, 0x100)] ++
      (List.range 4).map (fun k => (pgIn (4 * (n / 4) + k), 0x100))))

/-- One entry of a defect list has a good column within 16 strides on one side (R181). -/
def dplReach (listed : Nat → Bool) (p len c : Nat) : Bool :=
  (List.range 16).any (fun i =>
    let k := (i + 1) * p
    (decide (k ≤ c) && !listed (c - k)) || (decide (c + k < len) && !listed (c + k)))

/-- The defect list that context `x` of wale `w` would use fails R181. -/
def dplBad (m : Mem) (f : Tbl Word) (w x port : Nat) : Bool :=
  let n := vf f (cx (pgFront w) x 0x104) 12 0
  let dd := descOf f w x
  let len := vf f (ra (pgSkein port) 0x108) 16 0
  let es := (List.range (min n 4096)).map (fun i => dplEntry m w x (bankOf f w x) i)
  let key := fun (e : Nat) => natField e 31 30 * 32768 + natField e 14 0
  let listed := fun s c => es.any (fun e => decide (natField e 31 30 = s ∧ natField e 14 0 = c))
  decide (n > 4096) ||
  (es.zip (es.drop 1)).any (fun e => decide (key e.1 ≥ key e.2)) ||
  es.any (fun e =>
    let s := natField e 31 30
    let c := natField e 14 0
    decide (natField e 29 28 = 3) || decide (s ≥ descLines f dd) ||
    (decide (c < len) && !dplReach (listed s) (descPeriod f dd) len c))

/-- What the checks of R181 read: a change of any of these makes them again (R698). -/
def dplInputs (f : Tbl Word) (w x : Nat) : List Nat :=
  let p := portOfCtx f w x
  let n := p.getD 16
  [n, vf f (cx (pgFront w) x 0x104) 12 0, vf f (cx (pgFront w) x 0x100) 29 29, bankOf f w x,
    vf f (ra (pgSkein n) 0x108) 16 0, vf f (ra (pgSkein n) 0x108) 25 24, descOf f w x,
    vf f (ra pgColdesc (0x100 + 0x10 * descOf f w x)) 29 26]

/-- The defect lists (R181, R698). -/
def checkDpl (m : Mem) (fo f : Tbl Word) : List Fault' :=
  (List.range 16).flatMap (fun w => (List.range 2).flatMap (fun x =>
    match portOfCtx f w x with
    | none => []
    | some n =>
      if vb f (cx (pgFront w) x 0x100) 29 && decide (dplInputs fo w x ≠ dplInputs f w x) then
        faultIf (dplBad m f w x n) [(pgFront w, 0x400 * x + 0x104), (pgColor w, 0x400 * x + 0x100),
          (pgSkein n, 0x108), (pgIn w, 0x100), (pgColdesc, 0x100 + 0x10 * descOf f w x)]
      else []))

/-- A site that counts of one of the sensor lines listed holds a refused channel code (R187). -/
def badSites (f : Tbl Word) (dd : Nat) (lines : List Nat) : Bool :=
  lines.any (fun s => decide (s < descLines f dd) &&
    (List.range (descPeriod f dd)).any (fun q => decide (6 ≤ descSite f dd s q)))

/-- Colour of context `x` (R188, R199, R206) and the descriptors (R187, R207). -/
def checkColor (f : Tbl Word) : List Fault' :=
  (List.range 16).flatMap (fun w => (List.range 2).flatMap (fun x =>
    let dd := descOf f w x
    let pg := pgColor w
    let o := 0x400 * x
    let lines := match portOfCtx f w x with
      | none => false
      | some n => decide (descLines f dd ≠ vf f (ra (pgSkein n) 0x108) 25 24 + 1)
    faultIf (lines || decide (vf f (ra pgColdesc (0x100 + 0x10 * dd)) 27 26 = 3)) [(pg, o + 0x100)] ++
    faultIf ((List.range (descLines f dd)).all (fun s => decide (slOff f w x s ≠ 0))) [(pg, o + 0x110)] ++
    faultIf (decide (vf f (ra pg (o + 0x170)) 30 28 > 5) || decide (vf f (ra pg (o + 0x170)) 24 22 = 7)) [(pg, o + 0x170)])) ++
  (List.range 8).flatMap (fun dd =>
    faultIf (decide (vf f (ra pgColdesc (0x100 + 0x10 * dd)) 27 26 = 3)) [(pgColdesc, 0x100 + 0x10 * dd)] ++
    faultIf (badSites f dd [0, 1]) [(pgColdesc, 0x104 + 0x10 * dd)] ++
    faultIf (badSites f dd [2, 3]) [(pgColdesc, 0x108 + 0x10 * dd)])

/-- Cameras in use, as wale, context and port (R209). -/
def camerasOn (f : Tbl Word) : List (Nat × Nat × Nat) :=
  (portsOn f).filterMap (fun n => (ctxOfPort f n).map (fun c => (c.1, c.2, n)))

/-- The output span of context `x`: first column and length (R209). -/
def outSpan (f : Tbl Word) (w x : Nat) : Nat × Nat :=
  (vf f (cx (pgGeom w) x 0x104) 19 0, vf f (cx (pgGeom w) x 0x108) 16 0)

/-- The spans of one camera by themselves (R211). -/
def spanFaults (f : Tbl Word) (w x n : Nat) : List Fault' :=
  let pg := pgGeom w
  let o := 0x400 * x
  let os := outSpan f w x
  let ow := ownedSpan f w x
  let base := vf f (ra pgStitch 0x100) 19 0
  let more := [(pgSkein n, 0x100), (pgIn w, 0x100), (pgPos, 0x200)]
  faultIf (decide (os.2 = 0 ∨ os.2 > (if paired f w then 16384 else 32768)) ||
      (!vb f (ra pg (o + 0x100)) 20 && decide (os.2 > vf f (ra (pgSkein n) 0x108) 16 0)))
    ((pg, o + 0x108) :: more) ++
  faultIf (decide (os.1 + os.2 > 1048576)) ((pg, o + 0x104) :: more) ++
  faultIf (decide (ow.1 > ow.2) || decide (ow.1 < os.1) || decide (ow.1 < base)) ((pg, o + 0x10C) :: (pgStitch, 0x100) :: more) ++
  faultIf (decide (ow.2 ≥ os.1 + os.2) || decide (ow.2 ≥ base + 524288)) ((pg, o + 0x110) :: (pgStitch, 0x100) :: more)

/-- The stagger store of one camera (R223). -/
def storeFaults (f : Tbl Word) (w x n : Nat) : List Fault' :=
  let pg := pgGeom w
  let o := 0x400 * x
  let hold := vf f (ra pg (o + 0x118)) 19 0
  let more := [(pgColor w, o + 0x100), (pgSkein n, 0x100), (pgIn w, 0x100)]
  if vb f (ra pg (o + 0x100)) 21 then
    faultIf (decide (hold < 320)) ((pg, o + 0x118) :: more) ++
    faultIf (!(featsOn f w x).isEmpty || decide (storeB f w x = 16)) ((pg, o + 0x100) :: more)
  else faultIf (decide (hold > min 256 (onchipDepth f w x - 8))) ((pg, o + 0x118) :: more)

/-- One camera against another of its station: owned spans apart, and the blend window of a seam inside both
output spans (R211, R225). -/
def pairFaults (f : Tbl Word) (a b : Nat × Nat × Nat) : List Fault' :=
  let oa := ownedSpan f a.1 a.2.1
  let ob := ownedSpan f b.1 b.2.1
  let pa := pgGeom a.1
  let pb := pgGeom b.1
  let xa := 0x400 * a.2.1
  let xb := 0x400 * b.2.1
  let more := [(pgSkein a.2.2, 0x100), (pgSkein b.2.2, 0x100), (pgIn a.1, 0x100), (pgIn b.1, 0x100), (pgPos, 0x200)]
  if a.2.2 = b.2.2 ∨ stationOf f a.2.2 ≠ stationOf f b.2.2 then []
  else
    faultIf (decide (oa.1 ≤ ob.2 ∧ ob.1 ≤ oa.2)) ((pa, xa + 0x10C) :: (pb, xb + 0x10C) :: more) ++
    (if ob.1 = oa.2 + 1 then
      let bl := vf f (ra pa (xa + 0x114)) 9 0
      let h := bl / 2
      let sa := outSpan f a.1 a.2.1
      let sb := outSpan f b.1 b.2.1
      let out := fun (s : Nat × Nat) => decide (ob.1 < s.1 + h) || decide (ob.1 + h > s.1 + s.2)
      faultIf (decide (bl % 2 = 1) || decide (bl > 512) || (decide (0 < h) && (out sa || out sb)))
        ((pa, xa + 0x114) :: (pb, xb + 0x104) :: more)
    else [])

/-- Geometry and stitching (R208, R211, R223, R225). -/
def checkGeom (f : Tbl Word) : List Fault' :=
  let cs := camerasOn f
  faultIf (decide (vf f (ra pgStitch 0x100) 19 0 + 524288 > 1048576)) [(pgStitch, 0x100)] ++
  cs.flatMap (fun c => spanFaults f c.1 c.2.1 c.2.2 ++ storeFaults f c.1 c.2.1 c.2.2) ++
  cs.flatMap (fun a => cs.flatMap (fun b => pairFaults f a b))

/-- Segmentation (R80, R252, R257, R260, R271). -/
def checkSeg (f : Tbl Word) : List Fault' :=
  (List.range 16).flatMap (fun w =>
    let pg := pgSeg w
    (List.range 2).flatMap (fun x =>
      let o := 0x400 * x
      let cfg := vw f (ra pg (o + 0x100))
      let mo := vw f (ra pg (o + 0x10C))
      let src := fld cfg 23 22
      faultIf (decide (src ≠ 0) && !(featsOn f w x).contains (src - 1)) [(pg, o + 0x100), (pgColor w, o + 0x100)] ++
      faultIf (decide (fld cfg 21 20 = 3)) [(pg, o + 0x100)] ++
      faultIf (decide (vf f (ra pg (o + 0x104)) 23 12 = 0)) [(pg, o + 0x104)] ++
      faultIf (decide (fld mo 31 28 % 2 = 0) || decide (fld mo 27 24 % 2 = 0) || decide (fld mo 2 0 > 4) ||
        decide (fld mo 6 4 > 4) || decide (fld mo 10 8 > 4)) [(pg, o + 0x10C)] ++
      (List.range 3).flatMap (fun k =>
        let s := vf f (ra pg (o + 0x144 + 0x10 * k)) 12 0
        faultIf (decide (s = 0 ∨ s > 4096)) [(pg, o + 0x144 + 0x10 * k)]) ++
      boundOrder f pg (0x980 + 0x10 * x)) ++
    (List.range 6).flatMap (fun j => boundOrder f pg (0x900 + 0x10 * j)))

/-- The frontier window of station `ss`: column, length, first entry (R279). -/
def frontWin (f : Tbl Word) (ss : Nat) : Nat × Nat × Nat :=
  (vf f (ra pgTrk (0x208 + 0x20 * ss)) 19 0, vf f (ra pgTrk (0x20C + 0x20 * ss)) 20 0, vf f (ra pgTrk (0x210 + 0x20 * ss)) 20 0)

/-- The coil tracker (R279, R321, R322). -/
def checkTrk (f : Tbl Word) : List Fault' :=
  let on := (List.range 8).filter (tracked f)
  faultIf (decide (vf f (ra pgTrk 0x160) 15 0 = 0)) [(pgTrk, 0x160)] ++
  (List.range 8).flatMap (fun ss =>
    faultIf (decide (vf f (ra pgTrk (0x200 + 0x20 * ss)) 15 0 = 0)) [(pgTrk, 0x200 + 0x20 * ss)]) ++
  on.flatMap (fun ss =>
    let w := frontWin f ss
    faultIf (decide (w.2.1 = 0 ∨ w.2.1 > 524288)) [(pgTrk, 0x20C + 0x20 * ss)] ++
    faultIf (decide (w.2.2 + w.2.1 > 2097152) ||
      on.any (fun t =>
        let v := frontWin f t
        decide (t < ss) && decide (v.2.2 < w.2.2 + w.2.1) && decide (w.2.2 < v.2.2 + v.2.1))) [(pgTrk, 0x210 + 0x20 * ss)] ++
    (camsOf f ss).flatMap (fun c =>
      let o := ownedSpan f c.1 c.2
      faultIf (decide (o.1 < w.1) || decide (o.2 ≥ w.1 + w.2.1))
        ([(pgTrk, 0x208 + 0x20 * ss), (pgGeom c.1, 0x400 * c.2 + 0x10C), (pgPos, 0x200 + 0x20 * ss), (pgIn c.1, 0x100)] ++
          (portOfCtx f c.1 c.2).toList.map (fun n => (pgSkein n, 0x100)))))

/-- The classification bank that a commit selects for station `ss` has an uncorrectable word (R436). -/
def classBad (bad : List Nat) (fo f : Tbl Word) (ss : Nat) : Bool :=
  let bank := fun (g : Tbl Word) =>
    let t := vf g (ra pgTrk (0x200 + 0x20 * ss)) 29 27
    2 * t + (vb g (ra pgTrk 0x170) t).toNat
  decide (bank f ≠ bank fo) && bad.any (fun q => decide (q / 64 = 0x6000000 / 4096 + bank f))

/-- The regions of LPDDR5X that an enabled history context uses: ring and index (R375, R376). -/
def histRegions (f : Tbl Word) (nn : Nat) : List (Nat × Nat) :=
  let c := ringCfg f nn
  [(c.base, c.size), (c.idx, c.entries * 16)]

/-- History (R375). -/
def checkHist (f : Tbl Word) : List Fault' :=
  let on := (List.range 32).filter (fun nn => vb f (histA nn 0) 31)
  (List.range 32).flatMap (fun nn =>
    let w := nn / 2
    let x := nn % 2
    let o := 0x400 + 0x40 * nn
    faultIf (vb f (histA nn 0) 31 && decide (storeB f w x = 16)) [(pgHist, o), (pgGeom w, 0x400 * x + 0x100)] ++
    faultIf (!vb f (histA nn 0) 31 && vb f (cx (pgGeom w) x 0x100) 21) [(pgGeom w, 0x400 * x + 0x100), (pgHist, o)] ++
    faultIf (decide (vf f (histA nn 8) 17 0 < 16)) [(pgHist, o + 8)] ++
    faultIf (decide (vf f (histA nn 12) 28 24 < 10 ∨ 24 < vf f (histA nn 12) 28 24)) [(pgHist, o + 12)]) ++
  on.flatMap (fun a => on.flatMap (fun b =>
    faultIf (decide (b < a) && (histRegions f a).any (fun r => (histRegions f b).any (fun s =>
      decide (r.1 < s.1 + s.2 ∧ s.1 < r.1 + r.2)))) [(pgHist, 0x404 + 0x40 * a)]))

/-- In a Pairing a triggered camera port drives its pin (R516). -/
def checkPins (f : Tbl Word) : List Fault' :=
  (List.range 16).flatMap (fun n =>
    let cfg := vw f (ra pgTrg (0x100 + 0x10 * n))
    faultIf (portOn f n && !bitOf cfg 31 && decide (fld cfg 28 27 ≠ 3)) [(pgTrg, 0x100 + 0x10 * n), (pgSkein n, 0x100)])

/-- Every rule that the values `f` would break, `fo` being those in force now; `paired` tells of a Pairing, `bad` are
the uncorrectable granules of the QDR-IV. -/
def commitFaults (m : Mem) (inRun paired : Bool) (bad : List Nat) (fo f : Tbl Word) : List Fault' :=
  checkPos f ++ (List.range 8).flatMap (checkEnc f) ++ checkCmp f ++
  (List.range 16).flatMap (checkSkein inRun fo f) ++ checkIn f ++ checkDpl m fo f ++ checkColor f ++
  checkGeom f ++ checkSeg f ++ checkTrk f ++
  (List.range 8).flatMap (fun ss => faultIf (classBad bad fo f ss) [(pgTrk, 0x170), (pgTrk, 0x200 + 0x20 * ss)]) ++
  (if paired then checkPins f else []) ++ checkHist f ++ boundOrder f pgLpx 0x180

end Sys2Proof.Machine
end

