-- ==== Sys2Proof/Machine/Wale.lean ====
section
/-!
DEFINITION. How lines move through a wale: from the elastic store through the front rand into the alignment store, and
from there, aligned and reconstructed, into the stagger store, statistics and history (R72, R73, R162, R173, R174,
R190 to R204, R220, R695).
-/

namespace Sys2Proof.Machine

/-- The wale is in service: all of its rands are powered (R73, R658). -/
def waleOn (d : Dev) (w : Nat) : Bool := [pgFront w, pgColor w, pgGeom w, pgSeg w].all (fun pg => rb d (ra pg 0x008) 0)

/-- The context whose line the wale takes when it turns to context `x`: of two lines offered on one edge, the one of the
lower port number goes first (R162). -/
def takeCtx (d : Dev) (w x : Nat) : Nat :=
  match portOfCtx d.force w 0, portOfCtx d.force w 1 with
  | some a, some b =>
    match (skp d a).ready.head?, (skp d b).ready.head? with
    | some l, some k => if l.readyAt = k.readyAt && !l.gap && !k.gap then (if a < b then 0 else 1) else x
    | _, _ => x
  | _, _ => x

/-- Why the wale replaces a line it takes: it is out of service, or a parity error waits for the line (R72, R73). -/
def takeCause (d : Dev) (w x : Nat) (l : CamLine) : Option Nat :=
  if l.gap then none
  else if !waleOn d w then some 0x0C
  else if (wst d w x).faults.contains 0 then some 0x0D
  else none

/-- The counters and events of the front rand (R177 to R183, R205). -/
def frontCounts (d : Dev) (w x : Nat) (o : FrontOut) : Dev :=
  let pg := pgFront w
  let add := fun (d : Dev) (n off hi b : Nat) => if n = 0 then d else evt (countBy d (cx pg x off) hi 0 n) pg (8 * x + b)
  let d := add d o.clipLo 0x108 31 1
  let d := add d o.clipHi 0x10C 31 0
  let d := add d o.padMask 0x110 15 2
  add d o.rsv 0x114 31 3

/-- Camera line `l` of port `n` enters context `x`: its gaps merge, and its samples, once corrected, join the alignment
store (R162, R173, R178 to R184); in a block of a microcode change it is a gap line (R643). -/
def enterLine (d : Dev) (m : Mem) (w x n : Nat) (l : CamLine) : Dev :=
  let f := forceOf d l.stamp.ver
  let pause := d.paused.contains (l.stamp.sysLine / 256)
  let cause := if pause then none else takeCause d w x l
  let ps := match cause with
    | none => []
    | some c => ownedPiece f n c
  let s := wst d w x
  let r := mergeGaps d s.camGaps ((stationOf f n).getD 0) l.stamp.camLine l.stamp ps
  let s := { s with camGaps := r.2, faults := if cause = some 0x0D then s.faults.erase 0 else s.faults }
  if l.gap || pause || cause.isSome then
    setWst r.1 w x { s with lines := s.lines ++ [{ stamp := { l.stamp with gap := true }, gap := true }] }
  else
    let o := frontAll m f w x n l.lines
    frontCounts (setWst r.1 w x { s with lines := s.lines ++ [{ stamp := l.stamp, raw := o.raw, z := o.z }] }) w x o

/-- No further line comes to context `x`: its port is disabled, or named no more, and has passed on all it had (R193,
R695). -/
def streamEnded (d : Dev) (w x : Nat) : Bool :=
  match portOfCtx d.force w x with
  | none => true
  | some n => !portOn d.force n && (skp d n).ready.isEmpty && (skp d n).slots.isEmpty

/-- When every line of a stream that ended has been emitted, its statistics block, its gap records and its chunk close,
and the alignment store is empty (R158, R192, R203, R372, R695). -/
def finishCtx (d : Dev) (w x : Nat) : Dev :=
  let s := wst d w x
  if streamEnded d w x && s.lines.all (fun l => l.out) then
    let d := flushGaps (statCut d w x) (s.camGaps ++ s.alignGaps)
    endChunk (setWst d w x { (wst d w x) with lines := [], dropped := false, camGaps := [], alignGaps := [] }) w x
  else d

/-- The wale takes the next line of context `x` from its elastic store; what belongs to a stopped camera is dropped (R75,
R162). -/
def waleTake (d : Dev) (m : Mem) (w y : Nat) : Dev :=
  let x := takeCtx d w y
  match portOfCtx d.force w x with
  | none => d
  | some n =>
    match (skp d n).ready with
    | [] => d
    | l :: r =>
      let d := settleSlots (setSkp d n { (skp d n) with ready := r }) m n
      if (stopCause d w).isSome then d else finishCtx (enterLine d m w x n l) w x

/-- The place in the alignment store of the next line to emit, once it may be (R193). -/
def nextAligned (d : Dev) (w x : Nat) : Option Nat :=
  let ls := (wst d w x).lines
  match ls.findIdx? (fun l => !l.out) with
  | none => none
  | some i =>
    let f := forceOf d (ls.getD i default).stamp.ver
    if descLines f (descOf f w x) = 1 ∨ i + 4 < ls.length ∨ streamEnded d w x then some i else none

/-- COLOUR_ALIGN of an output line: the spans masked by alignment alone become gap pieces (R192). -/
def alignPieces (m : Mem) (f : Tbl Word) (w x n : Nat) (mask : List Bool) : List GapPiece :=
  if mask.any (fun b => b) then
    (reachSpans m f w x n mask).map (fun r => { cause := 0x0B, left := r.1, width := r.2, cls := gapCls w x })
  else []

/-- The alignment store keeps its last DEPTH lines and those not yet emitted (R194). -/
def trimLines (f : Tbl Word) (w x len : Nat) (s : WaleSt) : WaleSt :=
  let ovr := (s.lines.take (s.lines.length - alignDepth f w x len)).takeWhile (fun l => l.out)
  { s with lines := s.lines.drop ovr.length, dropped := s.dropped || !ovr.isEmpty }

/-- Output line at place `i` of the store, a line of samples, leaves the colour rand (R190 to R203). -/
def emitLine (d : Dev) (m : Mem) (w x n i : Nat) (l : ALine) : Dev :=
  let f := forceOf d l.stamp.ver
  let pg := pgColor w
  let len := vf f (ra (pgSkein n) 0x108) 16 0
  let s := wst d w x
  let o := colourLine f w x len s.lines.toArray s.dropped i
  let ps := alignPieces m f w x n o.alignMask
  let r := mergeGaps d s.alignGaps ((stationOf f n).getD 0) l.stamp.camLine l.stamp ps
  let d := setWst r.1 w x { (wst r.1 w x) with alignGaps := r.2 }
  let d := countBy d (cx pg x 0x164) 31 0 o.subst
  let d := if o.range then evt d pg (2 + x) else d
  let d := if ps.isEmpty then d else evt (count d (cx pg x 0x168)) pg (4 + x)
  let d := statAdd d w x len (statCfg f w x) l.stamp (fun a => some (tapSamples a.cfg l f w x o))
  storeLine d w x (remapLine m f w x len l.stamp o.planes)

/-- A gap line leaves the colour rand without processing (R173). -/
def emitGap (d : Dev) (w x n : Nat) (l : ALine) : Dev :=
  let f := forceOf d l.stamp.ver
  let r := mergeGaps d (wst d w x).alignGaps ((stationOf f n).getD 0) l.stamp.camLine l.stamp []
  let d := setWst r.1 w x { (wst r.1 w x) with alignGaps := r.2 }
  let d := statAdd d w x (vf f (ra (pgSkein n) 0x108) 16 0) (statCfg f w x) l.stamp (fun _ => none)
  storeLine d w x (gapSLine f w x l.stamp)

/-- The next output line of context `x`, if it may be emitted now (R193). -/
def alignedLine (d : Dev) (m : Mem) (w x : Nat) : Dev :=
  match nextAligned d w x with
  | none => d
  | some i =>
    let l := (wst d w x).lines.getD i default
    let f := forceOf d l.stamp.ver
    match portOfCtx f w x with
    | none => d
    | some n =>
      let d := if l.gap then emitGap d w x n l else emitLine d m w x n i l
      let s := wst d w x
      let s := { s with lines := s.lines.set i { l with out := true } }
      finishCtx (setWst d w x (trimLines f w x (vf f (ra (pgSkein n) 0x108) 16 0) s)) w x

end Sys2Proof.Machine
end

