-- ==== Sys2Proof/Machine/Commit.lean ====
section
/-!
DEFINITION. Arming, commit groups, and what a commit does to the blocks it reaches (R27 to R29, R48, R58,
R68, R98, R106, R109, R119, R122, R123, R233, R249, R374, R660 to R663, R694, R695, R697).
-/

namespace Sys2Proof.Machine

/-- COMMIT_STAT of a page. -/
def commitStatA (pg : Nat) : Nat := ra pg 0x034

/-- How page `pg` is armed. -/
def armOf (d : Dev) (pg : Nat) : Arming := tat d.arming pg

/-- Pages armed, rising. -/
def armedPages (d : Dev) : List Nat := (d.arming.filter (fun e => e.2.armed)).map (fun e => e.1)

/-- Page `pg` is no longer armed. -/
def disarm (d : Dev) (pg : Nat) : Dev := { d with arming := tset d.arming pg {} }

/-- The node refuses a commit in this mode: another than at epoch while the reference is remote (R482), or any
during a management restart (R641). -/
def modeDenied (d : Dev) (a : Arming) : Bool :=
  (fb d (ra pgPos 0x100) 31 && decide (a.mode ≠ 3)) || d.restart

/-- A running job holds the page: its target wale's, its job station's (R397). -/
def jobHolds (d : Dev) (pg : Nat) : Bool :=
  (runningJobs d).any (fun j =>
    (decide (0x100 ≤ pg) && decide (pg < 0x200) && decide ((pg - 0x100) / 16 = j.tgt)) || decide (pg = pgTrk))

/-- Pairing keeps the group from taking effect: an immediate commit while PROTECTED, or an arming the standby
has not acknowledged, be it in agreement or not (R519, R520). -/
def pairDenied (d : Dev) (pages : List Nat) : Bool :=
  pairEn d && ((decide (pairState d = 4) && pages.any (fun pg => decide ((armOf d pg).mode = 0))) ||
    ((decide (pairState d = 4) || decide (pairState d = 5)) && pages.any (fun pg => !d.pair.armAcked.contains pg)))

/-- Set bits of a page's COMMIT_STAT. -/
def commitMark (d : Dev) (pg : Nat) (bit : Nat) (off : Nat) : Dev :=
  poke (pokeBit d (commitStatA pg) bit true) (commitStatA pg) 11 0 off

/-- The shadow registers of a page, by BAR0 byte offset. -/
def shadowOffsets (pg : Nat) : List Nat :=
  match pageInfo pg with
  | none => []
  | some p => ((p.rows.filter (fun r => decide (r.sh ≠ 0))).flatMap (fun r => rowOffsets [r])).map (fun o => ra pg o)

/-- The values in force once a group's pages have taken their shadow values (R660). -/
def forceWith (d : Dev) (pages : List Nat) : Tbl Word :=
  (pages.flatMap shadowOffsets).foldl (fun f a =>
    let k := shadowMask a
    tput regReset f a ((vw f a &&& ~~~ k) ||| (reg d a &&& k))) d.force

/-- What is wrong with a group's pages taking their shadow values (R68). -/
def groupFaults (d : Dev) (m : Mem) (pages : List Nat) : List Fault' :=
  commitFaults m (decide (rf d (ra pgPwr 0x104) 31 30 = 0)) (rb d (ra pgPair 0x100) 31) d.qdrBad d.force (forceWith d pages)

/-- Offset to blame in page `pg` for a failed rule, if the rule concerns it. -/
def blame (fs : List Fault') (pg : Nat) : Option Nat :=
  fs.findSome? (fun at' => (at'.find? (fun x => decide (x.1 = pg))).map (fun x => x.2))

/-- Clear a bit that a commit has acted on, in the shadow image and in force (R14). -/
def clearShadowBit (d : Dev) (a i : Nat) : Dev :=
  setForce (pokeBit d a i false) a (putBit (inForce d a) i false)

/-! ### What a commit does, page by page; `fo` are the values it replaces -/

/-- A register's value in force differs from `fo` in field [hi:lo]. -/
def moved (d : Dev) (fo : Tbl Word) (a hi lo : Nat) : Bool := decide (vf fo a hi lo ≠ ff d a hi lo)

/-- A committed pitch change waits for its first line (R28, R29). -/
def pitchHook (d : Dev) (fo : Tbl Word) (c : Nat) : Dev :=
  if pitchOf fo c = pitchOf d.force c then d
  else
    let e := ench d c
    let keep := (List.range 8).filter (fun ss => decide (stnOffset fo ss ≠ stnOffset d.force ss))
    setEnc d c { e with pitchOld := some (e.pitchOld.getD (pitchOf fo c)), pitchKeep := e.pitchKeep ++ keep }

/-- A preset armed on channel `c` (R98, R106, R109). -/
def presetHook (d : Dev) (c : Nat) : Dev × List Fire :=
  if c < 6 ∧ fb d (encA c 0x100) 12 then
    let d := clearShadowBit d (encA c 0x100) 12
    let n := toSigned 64 (force64 d (encA c 0x118))
    let e := ench d c
    let d := setEnc d c { e with pos := n + (e.spread.total - (if e.spread.total < 0 then -(e.spread.done : Int) else e.spread.done)) }
    let d := encEvt (jumpCount (dropCorr d c) c n 3 0) c 12
    unitsJump (setEnc d c { (ench d c) with idxRefValid := false }) c
  else (d, [])

/-- Channel `c` after a commit of its page (R106, R109, R114). -/
def encHook (d : Dev) (fo : Tbl Word) (c : Nat) : Dev × List Fire :=
  let on := encOn d c
  let was := if c < 6 then vb fo (encA c 0x100) 31 else on
  let d := if on && !was then
      setEnc d c { (ench d c) with idxRefValid := false, rPrev := none, failRun := 0, stale := false, spread := {}, runA := 0, runB := 0 }
    else d
  let per := moved d fo (encA c 0x124) 31 0
  let d := if per then setEnc d c { (ench d c) with idxRefValid := false } else d
  let d := if (was && !on) || per || moved d fo (encA c 0x120) 23 19 || decide (ff d (encA c 0x120) 31 30 ≠ 2) then dropCorr d c else d
  let d := pitchHook d fo c
  let d := if fb d (encA c 0x150) 31 && !vb fo (encA c 0x150) 31 then alignCh d c else d
  presetHook d c

/-- Compare unit `u` after a commit of the CMP page (R119, R122, R694). -/
def cmpHook (fo : Tbl Word) (d : Dev) (u : Nat) : Dev × List Fire :=
  let x := cmpu d u
  let load := fb d (cmpA u 0) 25
  let d := if load then clearShadowBit d (cmpA u 0) 25 else d
  let w := cmpWritten d.force u
  let d := setCmp d u { x with due := none, loaded := w }
  if cmpOn d.force u then
    let take := load || !cmpOn fo u || decide (w ≠ x.loaded)
    let d := if take then setCmp d u { (cmpu d u) with next := w } else d
    if take || decide (cmpSpacing fo u ≠ cmpSpacing d.force u) || decide (cmpPhase fo u ≠ cmpPhase d.force u) then
      unitBehind false d u
    else (d, [])
  else (setCmp d u { (cmpu d u) with lateWait := false }, [])

/-- The timer of output `nn` restarts its phase (R123). -/
def trgHook (d : Dev) (fo : Tbl Word) (nn : Nat) : Dev :=
  let a := ra pgTrg (0x100 + 0x10 * nn)
  if ff d a 28 27 = 1 ∧ (vf fo a 28 27 ≠ 1 ∨ moved d fo (a + 4) 31 0) then
    { d with trg := tset d.trg nn { timerAt := d.cycle + (inForce d (a + 4)).toNat } }
  else d

/-- Port `n` after a commit of its page (R136, R148, R695). -/
def skeinHook (d : Dev) (m : Mem) (fo : Tbl Word) (n : Nat) : Dev :=
  let on := portOn d.force n
  let was := portOn fo n
  if was && !on then
    match ctxOfPort fo n with
    | none => portDisable d m n
    | some c => finishCtx (portDisable d m n) c.1 c.2
  else
    let d := if on && !was then setSkp d n { (skp d n) with lastStart := some d.cycle, stalled := false } else d
    if on && (skp d n).linkUp && !((usedLanes d.force n).all (fun k => (tat (skp d n).lanes k).locked)) then linkDown d m n
    else checkLink d n

/-- A change that flushes the stagger store of context `x` (R233). -/
def flushes (d : Dev) (fo : Tbl Word) (w x : Nat) : Bool :=
  moved d fo (cx (pgGeom w) x 0x104) 19 0 || moved d fo (cx (pgGeom w) x 0x108) 16 0 ||
  moved d fo (cx (pgGeom w) x 0x100) 23 21 || moved d fo (cx (pgColor w) x 0x100) 21 19

/-- A change of the history registers of context `x` (R374). -/
def histMoved (d : Dev) (fo : Tbl Word) (w x : Nat) : Bool :=
  (List.range 4).any (fun k => decide (vw fo (histA (histNo w x) (4 * k)) ≠ inForce d (histA (histNo w x) (4 * k))))

/-- MORPH_APPROX and DV of context `x` (R262, R263). -/
def morphStat (d : Dev) (w x : Nat) : Dev :=
  let a := segA w x 0x110
  let ovr := decide (morphReach d.force w x > 8)
  let was := rb d a 27
  let d := poke (pokeBit d a 27 ovr) a 20 16 (morphDv d.force w x)
  if ovr && !was then evt d (pgSeg w) (8 * x + 5) else d

/-- Entries of the defect list at or beyond LINE_LEN (R181). -/
def dplIgnored (d : Dev) (m : Mem) (w x : Nat) : Nat :=
  match portOfCtx d.force w x with
  | none => 0
  | some n =>
    let len := ff d (ra (pgSkein n) 0x108) 16 0
    ((List.range (ff d (cx (pgFront w) x 0x104) 12 0)).filter (fun i =>
      decide (natField (dplEntry m w x (bankOf d.force w x) i) 14 0 ≥ len))).length

/-- Context `x` of wale `w` after a commit (R181, R233, R249, R374). -/
def waleHook (d : Dev) (m : Mem) (fo : Tbl Word) (w x : Nat) : Dev :=
  let fl := flushes d fo w x
  let d := if fl || histMoved d fo w x then
      let s := wst d w x
      setWst d w x { s with flushAt := if fl then s.flushAt ++ [d.ver] else s.flushAt, histAt := s.histAt ++ [d.ver] }
    else d
  let again := fb d (segA w x 0x100) 19
  let d := if again then clearShadowBit d (segA w x 0x100) 19 else d
  let on := fb d (segA w x 0x100) 31
  let d := if on && (fl || again || !vb fo (segA w x 0x100) 31) then
      let s := sgs d w x
      setSgs d w x { s with learnAt := s.learnAt ++ [d.ver] }
    else d
  let d := if vb d.force (cx (pgFront w) x 0x100) 29 then poke d (cx (pgFront w) x 0x110) 31 16 (dplIgnored d m w x) else d
  morphStat d w x

/-- Every block after a commit (R60 and on, each by its own rule). The compare units come last: they see the
counts as the commit leaves them (R119). -/
def applyHooks (d : Dev) (m : Mem) (fo : Tbl Word) (pages : List Nat) : Dev × List Fire :=
  let encs := (List.range 8).filter (fun c => pages.contains (pgEnc c))
  let a := eachUnit (fun d c => encHook d fo c) encs d
  let d := if pages.contains pgTrg then (List.range 16).foldl (fun d nn => trgHook d fo nn) a.1 else a.1
  let d := ((List.range 16).filter (fun n => pages.contains (pgSkein n))).foldl (fun d n => skeinHook d m fo n) d
  let d := ((List.range 16).filter (fun w => pages.contains pgHist || (List.range 5).any (fun k => pages.contains (pgWale w k)))).foldl
    (fun d w => waleHook (waleHook d m fo w 0) m fo w 1) d
  let d := (List.range 8).foldl (fun d ss => poke d (ra pgStitch (0x120 + 4 * ss)) 19 0 (uncovered d.force ss)) d
  let d := refreshSpan d
  let b := if pages.contains pgCmp then eachUnit (cmpHook fo) (List.range 24) d else (d, [])
  (b.1, a.2 ++ b.2)

/-- The group's values take effect, under a new number (R27, R68, R660). `ep` is the epoch that results. -/
def applyGroup (d : Dev) (m : Mem) (pages : List Nat) (ep : Nat) : Dev × List Fire :=
  let fo := d.force
  let d := { d with force := forceWith d pages, past := tset d.past d.ver fo, ver := d.ver + 1 }
  let r := applyHooks d m fo pages
  let done := fun (d : Dev) pg =>
    let d := poke (pokeBit d (commitStatA pg) 31 true) (commitStatA pg) 23 16 ep
    disarm (poke d (commitStatA pg) 11 0 0) pg
  (pages.foldl done r.1, r.2)

/-- The group is refused: every page of a group of several says so, and each page says whether its own values caused
it (R68, R80, R663). -/
def refuseGroup (d : Dev) (pages : List Nat) (fs : List Fault') (held : Nat → Bool) : Dev :=
  pages.foldl (fun d pg =>
    let d := if held pg then commitMark d pg 27 0
      else match blame fs pg with
        | some o =>
          let d := commitMark (if pages.length > 1 then commitMark d pg 29 0 else d) pg 30 o
          if (loopGroup (ra pg o)).isSome then pokeBit d (ra pg (o + 8)) 3 true else d
        | none => commitMark d pg 29 0
    disarm d pg) d

/-- A commit group reaches its commit point: it takes effect as a whole, or is refused as a whole (R68). The
answer says whether it took effect. -/
def commitGroup (d : Dev) (m : Mem) (pages : List Nat) (ep : Nat) : Dev × List Fire × Bool :=
  let deny := pairDenied d pages
  let held := fun pg => deny || modeDenied d (armOf d pg) || jobHolds d pg
  let pgs := fun (at' : Fault') => at'.any (fun x => pages.contains x.1)
  let fs := (groupFaults d m pages).filter pgs
  if pages.any held then (refuseGroup d pages [] held, [], false)
  else if fs.isEmpty then
    let r := applyGroup d m pages ep
    (r.1, r.2, true)
  else (refuseGroup d pages fs (fun _ => false), [], false)

/-- The epoch that line L of a change taking effect now will carry (R48, R49). -/
def nextEpoch (d : Dev) : Nat := (d.pos.epoch + 1) % 256

/-- A group outside epoch mode: the change it makes counts one epoch at its line L (R48, R697). -/
def commitNowGroup (d : Dev) (m : Mem) (pages : List Nat) : Dev × List Fire :=
  let r := commitGroup d m pages (nextEpoch d)
  if r.2.2 then ({ r.1 with pos := { r.1.pos with epochPending := true } }, r.2.1) else (r.1, r.2.1)

/-- The distinct armings that satisfy a condition. -/
def armings (d : Dev) (hit : Arming → Bool) : List Arming :=
  ((armedPages d).map (armOf d)).eraseDups.filter hit

/-- Tick-mode armings that a forward count of channel `c`, or a jump from below, has reached (R662). -/
def tickReached (d : Dev) (c : Nat) (below : Option Int) : List Arming :=
  let n := (ench d c).count
  armings d (fun a => decide (a.mode = 2 ∧ a.ch = c) && decide (toSigned 64 a.pos ≤ n) &&
    (match below with
      | none => true
      | some o => decide (o < toSigned 64 a.pos)))

/-- Tick-mode armings that presets of a commit have reached, by the counts before it (R98, R662). -/
def presetReached (was d : Dev) : List Arming :=
  (List.range 6).flatMap (fun c =>
    if (ench was c).count < (ench d c).count then tickReached d c (some (ench was c).count) else [])

/-- Commit, group by group, the pages of armings that have reached their commit point, and those that presets of these
commits reach; `n` bounds how many (R662). -/
def commitChain (m : Mem) : Nat → List Arming → Dev → Dev × List Fire
  | 0, _, d => (d, [])
  | _ + 1, [], d => (d, [])
  | n + 1, a :: as, d =>
    let pages := (armedPages d).filter (fun pg => decide (armOf d pg = a))
    if pages.isEmpty then commitChain m n as d
    else
      let r := commitNowGroup d m pages
      let q := commitChain m n (as ++ presetReached d r.1) r.1
      (q.1, r.2 ++ q.2)

/-- Commit every page whose arming is listed, and what its presets reach: each commit disarms at least one page. -/
def commitReached (m : Mem) (as : List Arming) (d : Dev) : Dev × List Fire :=
  commitChain m (as.length + (armedPages d).length * ((armedPages d).length + 1)) as d

/-- A commit that has taken place, and what its presets reach (R662). -/
def thenPresets (m : Mem) (was : Dev) (r : Dev × List Fire) : Dev × List Fire :=
  let q := commitReached m (presetReached was r.1) r.1
  (q.1, r.2 ++ q.2)

/-- Commit the pages armed in immediate mode as one group, whatever their COMMIT_POS and CH (R662). -/
def commitImmediate (d : Dev) (m : Mem) : Dev × List Fire :=
  let pages := (armedPages d).filter (fun pg => decide ((armOf d pg).mode = 0))
  if pages.isEmpty then (d, []) else thenPresets m d (commitNowGroup d m pages)

/-- The line from which migrated settings are in force has come (R645, R649). -/
def settleMark (d : Dev) : Dev :=
  match d.upd.settleLine with
  | none => d
  | some n =>
    if n ≤ d.pos.sysLine then { d with upd := { d.upd with settledAt := some d.cycle, settleLine := none } } else d

/-- Commit what is armed for a system line up to the current one (R662, R697). -/
def commitLine (d : Dev) (m : Mem) : Dev × List Fire :=
  commitReached m (armings d (fun a => decide (a.mode = 1 ∧ a.pos ≤ d.pos.sysLine))) (settleMark d)

end Sys2Proof.Machine
end

