-- ==== Sys2Proof/Machine/Lpx.lean ====
section
/-!
DEFINITION. The LPDDR5X and QDR-IV controllers: operating points, address mapping, refresh, self-refresh and
training (R408 to R441).
-/

namespace Sys2Proof.Machine

/-- An LPDDR5X channel. -/
def lpc (d : Dev) (cc : Nat) : LpxCh := tat d.lpxch cc

/-- Replace an LPDDR5X channel. -/
def setLpc (d : Dev) (cc : Nat) (c : LpxCh) : Dev := { d with lpxch := tset d.lpxch cc c }

/-- Ranks of each channel (R408). -/
def lpxRanks (d : Dev) : Nat := if rb d (ra pgLpx 0x100) 30 then 2 else 1

/-- Width of the row field (R413). -/
def lpxRowBits (d : Dev) : Nat := if rb d (ra pgLpx 0x100) 29 then 17 else 16

/-- Bytes of LPDDR5X (R408). -/
def lpxSize (d : Dev) : Nat := lpxRanks d * 2 ^ (lpxRowBits d + 19)

/-- A place in LPDDR5X (R413, R414). -/
structure LpxPlace where
  ch : Nat
  rank : Nat
  bank : Nat
  row : Nat
  col : Nat
  deriving DecidableEq, Repr

/-- One hashed bit: its base bit with the parity of the masked row (R414). -/
def lpxBit (d : Dev) (a row k mask : Nat) : Nat :=
  ((a >>> k) % 2 + popCount 17 (row &&& fld (reg d (ra pgLpx mask)) 16 0)) % 2

/-- Where byte address `a` lies (R413, R414). -/
def lpxMap (d : Dev) (a : Nat) : LpxPlace :=
  let row := (a >>> (18 + lpxRanks d)) % 2 ^ lpxRowBits d
  let bits (n k mask : Nat) : Nat := (List.range n).foldl (fun s i => s + 2 ^ i * lpxBit d a row (k + i) (mask + 4 * i)) 0
  { ch := bits 4 11 0x110, rank := if lpxRanks d = 2 then lpxBit d a row 19 0x130 else 0,
    bank := 4 * bits 2 15 0x120 + bits 2 17 0x128, row := row, col := (a >>> 6) % 32 }

/-- An access opens its row (R419). -/
def openRow (d : Dev) (a : Nat) : Dev :=
  let p := lpxMap d a
  let c := lpc d p.ch
  setLpc d p.ch { c with rows := tset c.rows (16 * p.rank + p.bank) (some p.row) }

/-- An access to `n` bytes opens the rows of its granules (R408, R419). -/
def touchLpx (d : Dev) (a n : Nat) : Dev :=
  (List.range ((a % 64 + n + 63) / 64)).foldl (fun d i => openRow d (a - a % 64 + 64 * i)) d

/-- Owed refreshes of a rank: D (R424). -/
def owed (c : LpxCh) (r : Nat) : Nat := tat c.owed r

/-- A rank in PAYBACK (R426). -/
def inPayback (c : LpxCh) (r : Nat) : Bool := (tat c.windows r).isSome

/-- REF_CODE of a channel (R440). -/
def refCode (d : Dev) (cc : Nat) : Nat := rf d (ra (pgLpxCh cc) 0x100) 2 0

/-- PAYBACK, REFUSING and DEBT of a channel's status follow its ranks (R440). -/
def lpxStat (d : Dev) (cc : Nat) : Dev :=
  let c := lpc d cc
  let a := ra (pgLpxCh cc) 0x100
  let d := pokeBit d a 29 (inPayback c 0 || inPayback c 1)
  let d := pokeBit d a 28 (!c.refusing.isEmpty)
  poke d a 21 16 (Nat.min 63 (Nat.max (owed c 0) (owed c 1)))

/-- Set what a rank owes, and with nothing owed end its PAYBACK and refusing state (R425, R426). -/
def setOwed (c : LpxCh) (r n : Nat) : LpxCh :=
  let c := { c with owed := tset c.owed r n }
  if n = 0 then { c with refusing := c.refusing.filter (fun x => decide (x ≠ r)), windows := tset c.windows r none } else c

/-- A refresh precharges every bank of its rank (R419). -/
def closeRank (c : LpxCh) (r : Nat) : LpxCh := { c with rows := c.rows.filter (fun e => decide (e.1 / 16 ≠ r)) }

/-- A rank's code rises by `k` steps: its debt is recounted; above 8 it enters PAYBACK (R425 to R427). -/
def riseRank (d : Dev) (cc k r : Nat) : Dev :=
  let c := lpc d cc
  let n := owed c r
  if n = 0 then d
  else
    let n' := n * 2 ^ k
    let enter := decide (n' > 8) && !inPayback c r
    let c := { setOwed c r n' with refusing := (r :: c.refusing).eraseDups }
    let c := if enter then { c with windows := tset c.windows r (some 0) } else c
    let d := setLpc d cc c
    if enter then evt (count d (ra (pgLpxCh cc) 0x10C)) pgLpx 2 else d

/-- The Slath sensor nearest a channel's PHY, in 1/8 °C (R422, DESIGN CHOICE, log 21). -/
def phyTemp (d : Dev) (cc : Nat) : Int :=
  toSigned 16 (rf d (ra pgTherm (0x400 + 4 * (384 + Config.nearSensor cc % 24))) 15 0)

/-- The fall-back band of a temperature, from the band before: 0, 1 or 2; a lower band is entered 5 °C below its
threshold (R422). -/
def fallBand (was : Nat) (t : Int) : Nat :=
  let up := if t < 8 * 70 then 0 else if t < 8 * 85 then 1 else 2
  let down := if t < 8 * 65 then 0 else if t < 8 * 80 then 1 else 2
  Nat.max up (Nat.min was down)

/-- What a readout asks for: its code and DERATE; none when it failed (R421, R422). -/
def readoutCode : RateReadout → Option (Nat × Bool)
  | .code c der => if der then some (4, true) else some (c.val, false)
  | .aboveLimit => some (4, true)
  | .failed => none

/-- The required code of a channel after a poll, with DERATE, the channel after it, and whether the fall-back is
in use (R421, R422). -/
def requiredCode (d : Dev) (cc : Nat) (rs : List RateReadout) : Nat × Bool × LpxCh × Bool :=
  let c := lpc d cc
  let got := rs.map readoutCode
  let bad := got.any (fun g => g.isNone)
  let on := rb d (ra pgLpx 0x100) 27
  let fails := if !on then c.fails else if bad then Nat.min 2 (c.fails + 1) else 0
  let fb := !on || decide (fails ≥ 2)
  let a := ra (pgLpxCh cc) 0x100
  if fb then
    let b := fallBand c.band (phyTemp d cc)
    (b + 2, decide (b = 2), { c with fails := fails, band := b }, true)
  else if bad then (refCode d cc, rb d a 26, { c with fails := fails }, false)
  else
    let best := got.foldl (fun (x : Nat × Bool) g => match g with
      | some y => (Nat.max x.1 y.1, x.2 || y.2)
      | none => x) (0, false)
    (best.1, best.2, { c with fails := fails }, false)

/-- The refresh-rate registers of a channel are read and its code updated (R421 to R427). -/
def ratePoll (d : Dev) (cc : Nat) (r0 r1 : RateReadout) : Dev :=
  let rs := if lpxRanks d = 2 then [r0, r1] else [r0]
  let q := requiredCode d cc rs
  let a := ra (pgLpxCh cc) 0x100
  let on := rb d (ra pgLpx 0x100) 27
  let nbad := (rs.filter (fun r => decide (r = .failed))).length
  let d := if on then countBy d (ra (pgLpxCh cc) 0x114) 31 0 nbad else d
  let d := if q.2.2.2 && !rb d a 30 then evt d pgLpx 1 else d
  let d := pokeBit d a 30 q.2.2.2
  let d := if on && rs.any (fun r => decide (r = .aboveLimit)) then raise (evt d pgLpx 4) pgLpx 0x40 2 4 cc else d
  let d := setLpc d cc q.2.2.1
  let d := if on && nbad = 0 then
      poke d (ra (pgLpxCh cc) 0x104) 2 0 ((rs.filterMap readoutCode).foldl (fun x y => Nat.max x y.1) 0) else d
  let d := poke d (ra (pgLpxCh cc) 0x104) 31 24 (sf 8 (phyTemp d cc / 8))
  let g := ra pgLpx 0x180
  let b := groupBounds d.force g
  let want := Nat.max q.1 b.1.toNat
  let d := if b.2 < (q.1 : Int) then pokeBit d (g + 8) 2 true else d
  let d := setPinned d g pgLpx 0 (decide ((q.1 : Int) < b.1)) false
  let cur := refCode d cc
  let new := if want ≥ cur then want else cur - 1
  let d := poke (pokeBit d a 26 q.2.1) a 2 0 new
  let d := if new > cur then (List.range (lpxRanks d)).foldl (fun d r => riseRank d cc (new - cur) r) d else d
  lpxStat d cc

/-- The effective postponement limit at a code (R424). -/
def postponeLimit (d : Dev) (code : Nat) : Nat := Nat.min (rf d (ra pgLpx 0x154) 3 0) (if code ≥ 3 then 4 else 8)

/-- A refresh interval of a rank elapses (R424 to R426). -/
def refreshDue (d : Dev) (cc r : Nat) (busy : Bool) : Dev :=
  let c := lpc d cc
  let n := owed c r
  if rb d (ra (pgLpxCh cc) 0x100) 27 ∨ lpxRanks d ≤ r then d
  else if inPayback c r then lpxStat (setLpc d cc (setOwed c r (n + 1))) cc
  else if c.refusing.contains r then lpxStat (setLpc d cc (closeRank (setOwed c r (n - 1)) r)) cc
  else if busy then
    if n + 1 ≤ postponeLimit d (refCode d cc) then
      lpxStat (count (setLpc d cc (setOwed c r (n + 1))) (ra (pgLpxCh cc) 0x108)) cc
    else lpxStat (setLpc d cc (closeRank c r)) cc
  else lpxStat (setLpc d cc (closeRank (setOwed c r 0) r)) cc

/-- The point in force (R411). -/
def lpxPoint (d : Dev) : Nat := rf d (ra pgLpx 0x104) 5 4

/-- Refreshes that 2 µs of a window pay (R426). -/
def windowPays (d : Dev) : Nat :=
  let t := ff d (ra pgLpx (0x204 + 0x20 * lpxPoint d)) 15 0
  if t = 0 then 0 else ([2400, 6400, 1600].getD (lpxPoint d) 2400) / (t * [1, 3, 1].getD (lpxPoint d) 1)

/-- A PAYBACK window of a rank starts; a fifth ends PAYBACK after its 16 µs (R426). -/
def paybackWindow (d : Dev) (cc r : Nat) : Dev :=
  let c := lpc d cc
  match tat c.windows r with
  | none => d
  | some k =>
    let n := owed c r
    if k < 4 then
      let c := { c with windows := tset c.windows r (some (k + 1)) }
      lpxStat (setLpc d cc (closeRank (setOwed c r (n - windowPays d)) r)) cc
    else
      let c := closeRank (setOwed { c with windows := tset c.windows r none } r (Nat.min n 8)) r
      let d := setLpc d cc c
      let d := if n > 8 then raise (evt (count d (ra (pgLpxCh cc) 0x110)) pgLpx 3) pgLpx 0x42 1 4 (2 * cc + r) else d
      lpxStat d cc

/-- Every owed refresh is paid and every bank precharged (R411, R428). -/
def payAll (d : Dev) : Dev :=
  (List.range 16).foldl (fun d cc =>
    let c := lpc d cc
    lpxStat (setLpc d cc { c with owed := [], refusing := [], windows := [], rows := [] }) cc) d

/-- Whether a point may be chosen (R412). -/
def pointOk (d : Dev) (p : Nat) : Bool :=
  let b := inForce d (ra pgLpx (0x204 + 0x20 * p))
  decide (p < 3) && decide (fld b 31 16 ≠ 0 ∧ fld b 15 0 ≠ 0) && rb d (ra pgLpx 0x108) p

/-- A write of LPX_OP.POINT changes the operating point (R411, R412, R427). -/
def pointChange (d : Dev) (p : Nat) : Dev :=
  let a := ra pgLpx 0x104
  if rb d a 31 then d
  else if p = lpxPoint d ∧ p < 3 then poke d a 1 0 p
  else if !pointOk d p then pokeBit d a 30 true
  else evt (poke (poke (payAll d) a 1 0 p) a 5 4 p) pgLpx 6

/-- A bank's idle timer ends: the bank is precharged (R419). -/
def bankIdle (d : Dev) (cc r b : Nat) : Dev :=
  let c := lpc d cc
  setLpc d cc { c with rows := tset c.rows (16 * r + b) none }

/-- Self-refresh entry and exit of every rank (R428). -/
def selfRefresh (d : Dev) (on : Bool) : Dev :=
  (List.range 16).foldl (fun d cc => pokeBit d (ra (pgLpxCh cc) 0x100) 27 on) (payAll d)

/-- The segments not kept lose their contents (R429). -/
def loseSegments (d : Dev) (m : Mem) : Mem :=
  let seg := lpxSize d / 8
  let keep := rf d (ra pgLpx 0x158) 7 0
  (List.range 8).foldl (fun m s =>
    if keep.testBit s then m
    else { m with lpx := m.lpx.filter (fun c => !decide (s * seg ≤ c.1 ∧ c.1 < (s + 1) * seg)),
                  lpxLost := (s * seg, (s + 1) * seg - 1) :: m.lpxLost }) m

/-- Whether a write of SR_REQ is refused (R429). -/
def srRefused (d : Dev) : Bool :=
  (List.range 32).any (fun nn => fb d (histA nn 0) 31) || !(runningJobs d).isEmpty || !d.jobq.isEmpty

/-- A write of SR_REQ enters or leaves self-refresh (R428, R429). -/
def srRequest (d : Dev) (m : Mem) (enter : Bool) : Dev × Mem :=
  if srRefused d then (pokeBit d (ra pgLpx 0x108) 29 true, m)
  else
    let was := rb d (ra (pgLpxCh 0) 0x100) 27
    let d := selfRefresh (pokeBit d (ra pgLpx 0x158) 8 enter) enter
    (d, if was && !enter then loseSegments d m else m)

/-- A plausible training result (R432). -/
def trainOk (r : TrainResult) : Bool :=
  decide (16 ≤ r.rdWidth ∧ r.rdWidth ≤ 56 ∧ 40 ≤ r.rdHeight ∧ r.rdHeight ≤ 400 ∧
    16 ≤ r.wrWidth ∧ r.wrWidth ≤ 56 ∧ 40 ≤ r.wrHeight ∧ r.wrHeight ≤ 400)

/-- A width in taps as 0.1 ps, with a tap of `num ÷ den` 0.1 ps. -/
def tapWidth (num den w : Nat) : Nat := (2 * w * num + den) / (2 * den)

/-- The figures of a byte lane or data group (R432, R437, R440, R441). -/
def trainLane (d : Dev) (pg num den : Nat) (r : TrainResult) : Dev :=
  let a := ra pg (0x140 + 0x10 * r.lane.val)
  let d := setReg d a (wpack [(16, 16, tapWidth num den r.rdWidth), (0, 16, r.rdWidth)])
  let d := setReg d (a + 4) (wpack [(24, 8, sf 8 r.rdResidual), (0, 16, r.rdHeight)])
  let d := setReg d (a + 8) (wpack [(16, 16, tapWidth num den r.wrWidth), (0, 16, r.wrWidth)])
  setReg d (a + 12) (wpack [(24, 8, sf 8 r.wrResidual), (0, 16, r.wrHeight)])

/-- Results of a training run of LPDDR5X channel `cc` at the point in force (R431, R432). -/
def lpxTrain (d : Dev) (cc : Nat) (rs : List TrainResult) : Dev :=
  let k := [(10000000, 614400), (30000000, 1638400), (10000000, 409600)].getD (lpxPoint d) (10000000, 614400)
  let d := rs.foldl (fun d r =>
    if decide (r.lane.val < 2) && trainOk r then trainLane d (pgLpxCh cc) k.1 k.2 r
    else evt (count d (ra (pgLpxCh cc) 0x118)) pgLpx 5) d
  pokeBit d (ra pgLpx 0x15C) 31 false

/-- The oscillator moves a byte lane's write delay by at most one tap (R431). -/
def oscTrack (d : Dev) (cc lane : Nat) (taps : Int) : Dev :=
  let c := lpc d cc
  setLpc d cc { c with delay := tset c.delay lane (tat c.delay lane + satI taps (-1) 1) }

/-- Results of a training run of QDR-IV channel `cc` (R437). -/
def qdrTrain (d : Dev) (cc : Nat) (rs : List TrainResult) : Dev :=
  let d := rs.foldl (fun d r =>
    if trainOk r then trainLane d (pgQdrCh cc) 46880 640 r
    else evt (count d (ra (pgQdrCh cc) 0x110)) pgQdr 3) d
  pokeBit d (ra pgQdr 0x100) 29 false

/-- A lasting word in a parked-coil slot retires the slot (R436). -/
def retireSlot (d : Dev) (a : Nat) : Dev :=
  let s := a / 64
  if a < 2 ^ 26 ∧ !d.trk.retired.contains s then
    let d := setTrk d { d.trk with retired := d.trk.retired ++ [s] }
    evt (countBy d (ra (pgQdrCh (s % 4)) 0x114) 15 0 1) pgQdr 4
  else d

end Sys2Proof.Machine
end

