-- ==== Sys2Proof/Machine/Time.lean ====
section
/-!
DEFINITION. The time counter, its slew and its steps, and PTP (R493 to R513, R696). Times are counted in 2^-32 ns
inside the counter and in 2^-16 ns in stamps and messages.
-/

namespace Sys2Proof.Machine

/-- One second in units of the counter. -/
def secUnits : Nat := 1000000000 * 2 ^ 32

/-- The counter's range: 64 bits of seconds (R43). -/
def timeWrap : Nat := 2 ^ 64 * secUnits

/-- Address of a register of the TIME page. -/
def timeA (o : Nat) : Nat := ra pgTime o

/-- Address of a register of the PTP page. -/
def ptpA (o : Nat) : Nat := ra pgPtp o

/-- SLEW_MAX as stored (R494). -/
def slewMax (d : Dev) : Int := (rf d (timeA 0x11C) 21 0 : Nat)

/-- FREQ as written (R493). -/
def timeFreq (d : Dev) : Int := toSigned 32 (reg d (timeA 0x118)).toNat

/-- f of R493. -/
def timeF (d : Dev) : Int := satI (timeFreq d) (-(slewMax d)) (slewMax d)

/-- room of R493, for an adjustment of the sign of `adj`. -/
def timeRoom (d : Dev) (adj : Int) : Int := if adj > 0 then slewMax d - timeF d else slewMax d + timeF d

/-- The rate that FREQ and ADJ ask for is cut to SLEW_MAX (R494). -/
def timeCut (d : Dev) : Bool :=
  decide (timeFreq d ≠ timeF d) || decide ((d.time.adj.natAbs : Int) > timeRoom d d.time.adj)

/-- AT_LIMIT follows what is asked for, and is raised on entry (R494). -/
def timeLimit (d : Dev) : Dev :=
  let now := timeCut d
  let was := d.time.atLimit
  let d := { d with time := { d.time with atLimit := now } }
  if now && !was then evt d pgTime 3 else d

/-- What `n` control-clock edges slew of an adjustment (R493). -/
def slewed (d : Dev) (n : Nat) : Int :=
  let a := d.time.adj
  let most := (timeRoom d a).toNat * n
  if a > 0 then min a most else if a < 0 then -(min (-a) most) else 0

/-- The counter runs for `n` control-clock edges; ADJ_DONE is raised when it slews the last of an adjustment
(R493, R495). -/
def timeRun (d : Dev) (n : Nat) : Dev :=
  let s := slewed d n
  let t := d.time
  let next := (((t.now : Int) + n * (10737418240 + timeF d) + s) % timeWrap).toNat
  let d := { d with time := { t with now := next, adj := t.adj - s } }
  timeLimit (if t.adj ≠ 0 ∧ t.adj = s then evt d pgTime 4 else d)

/-- The clock of the part moves on to edge `t` with no other event on the way; a stopped counter stays (R497). -/
def clockTo (d : Dev) (t : Nat) : Dev :=
  if t ≤ d.cycle then d
  else
    let n := t - d.cycle
    let d := { d with cycle := t }
    if d.life = .up then timeRun d n else d

/-- The time a line triggered on the present edge is stamped with: before any step on that edge (R46, R500). -/
def lineTime (d : Dev) : Nat :=
  match d.time.before with
  | some (e, t) => if e = d.cycle then t / 2 ^ 16 else timeStamp d
  | none => timeStamp d

/-- The remainder of the adjustment in 2^-16 ns, toward zero (R495). -/
def adjRest (d : Dev) : Int := Int.tdiv d.time.adj 65536

/-- A write of TIME_ADJ_HI (R495). -/
def timeAdjWrite (d : Dev) (hi : Nat) : Dev :=
  timeLimit { d with time := { d.time with adj := toSigned 48 ((hi % 65536) * 2 ^ 32 + d.time.adjLo) * 65536 } }

/-- A write of TIME_SLEW_MAX (R494). -/
def slewWrite (d : Dev) (v : Nat) : Dev :=
  let k := max 10738 (min v 2147483)
  let d := if k = v then d else pokeBit d (timeA 0x104) 28 true
  timeLimit (poke d (timeA 0x11C) 21 0 k)

/-- An accepted step to `t`, of `ns` as its note tells (R500). -/
def stepTo (d : Dev) (t : Nat) (ns : Int) : Dev :=
  let old := d.time.now
  let before := match d.time.before with
    | some (e, o) => if e = d.cycle then o else old
    | none => old
  let line := match d.pos.lastAny with
    | some st => st.sysLine
    | none => (Config.noLineYet d.cycle).toNat
  let d := { d with
    time := { d.time with now := t % timeWrap, before := some (d.cycle, before), adj := 0, valid := true }
    pos := { d.pos with timeSteps := d.pos.timeSteps + 1, timeMark := some line } }
  let d := evt (count d (timeA 0x14C)) pgTime 0
  timeLimit (pushNote d (noteRec d 5 0 0 line 0 ns 0 0))

/-- A step is accepted when time is unset, out of Run, or forced (R499). -/
def stepAllowed (d : Dev) (force : Bool) : Bool := !d.time.valid || decide (rf d (ra pgPwr 0x104) 31 30 ≠ 0) || force

/-- A step to `t` is accepted or refused (R499). -/
def timeStep (d : Dev) (force : Bool) (t : Nat) (ns : Int) : Dev :=
  if stepAllowed d force then stepTo d t ns
  else evt (count (pokeBit d (timeA 0x104) 27 true) (timeA 0x148)) pgTime 1

/-- A time in units of the counter. -/
def timeOf (sec ns frac : Nat) : Nat := ((sec * 1000000000 + ns) * 65536 + frac) * 65536

/-- SET_GO (R498, R501). -/
def timeSet (d : Dev) (force : Bool) : Dev :=
  let r := fun o => (reg d (timeA o)).toNat
  let t := timeOf (r 0x130 * 2 ^ 32 + r 0x12C) (r 0x128 % 2 ^ 30) (r 0x134 % 65536)
  timeStep d force t (roundShr ((t : Int) - d.time.now) 32)

/-- STEP_GO (R498). -/
def timeStepGo (d : Dev) (force : Bool) : Dev :=
  let ns := toSigned 64 (reg64 d (timeA 0x13C))
  timeStep d force (((d.time.now : Int) + ns * 2 ^ 32) % timeWrap).toNat ns

/-- TIME_CFG.SRC as it binds the part: a standby part follows its twin (R525), as code 3. -/
def timeSource (d : Dev) : Nat :=
  let st := rf d (ra pgPair 0x104) 31 29
  if st = 2 ∨ st = 3 ∨ st = 6 then 3 else rf d (timeA 0x100) 31 30

/-- The servo sets the counter when the offset passes STEP_THR (R498, R501). -/
def servoSet (d : Dev) (sec ns frac : Nat) (offsetNs : Int) : Dev :=
  let thr := rf d (timeA 0x100) 29 0
  let src := timeSource d
  if src = 0 ∨ thr = 0 ∨ offsetNs.natAbs ≤ thr then d
  else
    let sec := if src = 1 then rf d (timeA 0x144) 15 0 * 2 ^ 48 + sec % 2 ^ 48 else sec % 2 ^ 64
    let t := timeOf sec (ns % 1000000000) (frac % 65536)
    timeStep d false t (roundShr ((t : Int) - d.time.now) 32)

/-! ### PTP (R503 to R510) -/

/-- PTP is in use in this role (R503). -/
def ptpRole (d : Dev) (role : Nat) : Bool := rb d (ptpA 0x100) 31 && decide (rf d (ptpA 0x100) 30 29 = role)

/-- A message is of the part's domain (R503). -/
def ptpDomain (d : Dev) (dom : BitVec 8) : Bool := decide (rf d (ptpA 0x100) 22 16 = dom.toNat)

/-- The part receives time on this port (R503). -/
def ptpListens (d : Dev) (p : Nat) : Bool := ptpRole d 1 && decide ((rb d (ptpA 0x100) 28).toNat = p)

/-- A latency in ps as 2^-16 ns. -/
def psUnits (ps : Nat) : Nat := ps * 65536 / 1000

/-- EGRESS of port `p` (R506). -/
def latEgress (d : Dev) (p : Nat) : Nat := psUnits (rf d (ptpA (0x120 + 0x10 * p)) 31 16)

/-- INGRESS of port `p` (R506). -/
def latIngress (d : Dev) (p : Nat) : Nat := psUnits (rf d (ptpA (0x120 + 0x10 * p)) 15 0)

/-- PTP time: the low 48 bits of the seconds (R44, R506), in 2^-16 ns. -/
def ptpWrap : Int := 2 ^ 48 * 1000000000 * 65536

/-- The counter as PTP sees it. -/
def ptpNow (d : Dev) : Int := (timeStamp d : Int) % ptpWrap

/-- The difference of two PTP times. -/
def ptpDiff (a b : Int) : Int :=
  let x := (a - b) % ptpWrap
  if 2 * x < ptpWrap then x else x - ptpWrap

/-- Whole ns of a value in 2^-16 ns (DESIGN CHOICE, log 24). -/
def ptpNs (x : Int) : Int := shr x 16 + (if x % 65536 ≠ 0 ∧ Config.ptpUp x then 1 else 0)

/-- A time as a message carries it, in 2^-16 ns. -/
def wireTime (w : WireTime) : Int := ((w.sec % 2 ^ 48 * 1000000000 + w.ns) * 65536 + w.frac : Nat)

/-- 2^e seconds in control-clock cycles, e from -8 to 7. -/
def pow2Secs (e : Int) : Nat := 400000000 * 2 ^ (e + 8).toNat / 256

/-- The best master, unless it has been silent for announceReceiptTimeout announce intervals (R504). -/
def bestMaster (d : Dev) : Option PtpMaster :=
  let w := reg d (ptpA 0x104)
  d.ptp.best.filter (fun b => decide (d.cycle ≤ b.heardAt + fld w 7 0 * pow2Secs (toSigned 8 (fld w 23 16))))

/-- The standard's comparison of two datasets as lists of numbers, lower first (R504). -/
def lessList : List Nat → List Nat → Bool
  | [], _ => false
  | _, [] => false
  | a :: as, b :: bs => decide (a < b) || (decide (a = b) && lessList as bs)

/-- What two datasets are compared by (R504). -/
def masterKey (b : PtpMaster) : List Nat := [b.p1, b.cls, b.acc, b.var, b.p2, b.ident.toNat, b.steps]

/-- An Announce message (R504). -/
def ptpAnnounce (d : Dev) (a : AnnounceMsg) : Dev :=
  if !ptpDomain d a.domain || a.own then d
  else if ptpRole d 2 then evt d pgTime 6
  else if ptpListens d a.port then
    let new : PtpMaster := {
      p1 := a.priority1.toNat, cls := a.clockClass.toNat, acc := a.accuracy.toNat, var := a.variance.toNat,
      p2 := a.priority2.toNat, ident := a.identity, steps := a.steps.toNat, heardAt := d.cycle }
    let take := match bestMaster d with
      | none => true
      | some b => decide (b.ident = new.ident) || lessList (masterKey new) (masterKey b)
    if take then { d with ptp := { d.ptp with best := some new } } else d
  else d

/-- A Sync of the best master is used: the offset, LOCKED, and the end of SRC_LOST (R505, R506). -/
def ptpUseSync (d : Dev) (m : SyncMsg) : Dev :=
  if ptpListens d m.port && ptpDomain d m.domain && decide ((bestMaster d).map (fun b => b.ident) = some m.identity) then
    let t1 := wireTime m.origin + m.correction
    let t2 := ptpNow d + m.ingressCycleFrac - latIngress d m.port
    let off := ptpDiff t2 t1 - d.ptp.delay
    let offs := (off :: d.ptp.offsets).take 8
    let thr := rf d (ptpA 0x10C) 15 0 * 65536
    let d := { d with ptp := { d.ptp with sync := some (t1, t2), offsets := offs, usedAt := d.cycle } }
    let d := setReg d (ptpA 0x110) (BitVec.ofInt 32 (ptpNs off))
    let d := setReg d (ptpA 0x114) (BitVec.ofInt 32 (ptpNs d.ptp.delay))
    let d := pokeBit d (ptpA 0x10C) 31 (decide (offs.length = 8) && offs.all (fun o => decide (o.natAbs ≤ thr)))
    pokeBit d (timeA 0x104) 26 false
  else d

/-- A time message leaves: its sequence number counts by kind and port. -/
def ptpSend (d : Dev) (p kind : Nat) (time : Option Nat) (corr : Int) (ident : Dword) : Dev :=
  let k := 16 * p + kind
  let q := tat d.ptp.seqs k
  let d := { d with ptp := { d.ptp with seqs := tset d.ptp.seqs k ((q + 1) % 65536) } }
  emit d (.ptp p kind q time corr ident)

/-- Ethernet ports whose link is up. -/
def portsUp (d : Dev) : List Nat := (List.range 2).filter (fun p => d.ethUp.contains p)

/-- Sync, one step or two, on both ports of the grandmaster (R503). -/
def ptpSyncOut (d : Dev) : Dev :=
  if ptpRole d 2 then
    (portsUp d).foldl (fun d p =>
      let t := ((ptpNow d + latEgress d p) % ptpWrap).toNat
      if rb d (ptpA 0x100) 26 then ptpSend (ptpSend d p 0 none 0 0) p 8 (some t) 0 0 else ptpSend d p 0 (some t) 0 0) d
  else d

/-- Announce on both ports of the grandmaster: PTP_GM_QUALITY and its timeSource (R504). -/
def ptpAnnounceOut (d : Dev) : Dev :=
  if ptpRole d 2 then
    let src := if rf d (timeA 0x100) 31 30 = 2 then 0x40 else 0xA0
    (portsUp d).foldl (fun d p => ptpSend d p 11 none 0 (dpack [(0, 32, (reg d (ptpA 0x108)).toNat), (32, 8, src)])) d
  else d

/-- A Delay_Req leaves the time receiver (R503, R506). -/
def ptpDelayReq (d : Dev) : Dev :=
  let p := (rb d (ptpA 0x100) 28).toNat
  if ptpRole d 1 && d.ethUp.contains p && (bestMaster d).isSome then
    let d := { d with ptp := { d.ptp with reqAt := some ((ptpNow d + latEgress d p) % ptpWrap) } }
    ptpSend d p 1 none 0 0
  else d

/-- A Delay_Req reaches the grandmaster, which answers it (R503). -/
def ptpAnswer (d : Dev) (p : Nat) (dom : BitVec 8) (ident : Dword) (corr : Int) : Dev :=
  if ptpRole d 2 && ptpDomain d dom && d.ethUp.contains p then
    ptpSend d p 9 (some ((ptpNow d - latIngress d p) % ptpWrap).toNat) corr ident
  else d

/-- The answer to this part's request: the path delay from the two exchanges (R503, R505). -/
def ptpDelayResp (d : Dev) (p : Nat) (dom : BitVec 8) (receipt : WireTime) (corr : Int) : Dev :=
  if ptpListens d p && ptpDomain d dom then
    match d.ptp.reqAt, d.ptp.sync with
    | some t3, some (t1, t2) =>
      let t4 := wireTime receipt - corr
      { d with ptp := { d.ptp with reqAt := none, delay := shr (ptpDiff t2 t1 + ptpDiff t4 t3) 1 } }
    | _, _ => d
  else d

/-- No Sync has been used for SRC_TIMEOUT ms: holdover (R505). -/
def ptpLost (d : Dev) : Dev :=
  if timeSource d = 0 ∨ rb d (timeA 0x104) 26 then d
  else evt (pokeBit d (timeA 0x104) 26 true) pgTime 2

/-- The edge on which SRC_LOST falls (R505). -/
def srcLostAt (d : Dev) : Nat := d.ptp.usedAt + rf d (timeA 0x150) 15 0 * 400000

/-- A frame crosses the two-port bridge or is dropped (R508 to R510). -/
def tcBridge (d : Dev) (f : BridgeFrame) : Dev :=
  if !rb d (ptpA 0x100) 27 || f.toPartAlone then d
  else
    let q := 1 - f.port.val
    let res := f.residence + latIngress d f.port + latEgress d q
    if !d.ethUp.contains q || decide (res > 10000 * 65536) then evt (count d (ptpA (0x128 + 0x10 * q))) pgTime 5
    else emit (count d (ptpA (0x124 + 0x10 * q))) (.bridge q (if f.kind = .event then f.correction + res else f.correction))

/-- A write that R696 discards: TIME_CFG, PTP_CFG or PTP_INTERVALS naming a refused value. -/
def timeRefused (a v : Nat) : Bool :=
  let iv := fun hi lo => toSigned 8 (natField v hi lo)
  if a = timeA 0x100 then decide (natField v 31 30 = 3)
  else if a = ptpA 0x100 then decide (natField v 30 29 = 3)
  else if a = ptpA 0x104 then
    decide (iv 31 24 < -7 ∨ iv 31 24 > 1 ∨ iv 23 16 < -3 ∨ iv 23 16 > 4 ∨ iv 15 8 < -7 ∨ iv 15 8 > 5)
  else false

/-- CFG_REFUSED of the page concerned (R696). -/
def timeRefuse (d : Dev) (a : Nat) : Dev := if a = timeA 0x100 then pokeBit d (timeA 0x104) 25 true else pokeBit d (ptpA 0x10C) 29 true

end Sys2Proof.Machine
end

