-- ==== Sys2Proof/Machine/Read.lean ====
section
/-!
DEFINITION. What a register or a BAR2 byte reads as: the live values of the RO/H registers, and the latches of
their LO and HI pairs (R14, R56, R664 to R667).
-/

namespace Sys2Proof.Machine

/-- The low word of a 64-bit value. -/
def loW (x : Int) : Word := BitVec.ofNat 32 (wrapNat 64 x)

/-- The high word of a 64-bit value. -/
def hiW (x : Int) : Word := BitVec.ofNat 32 (wrapNat 64 x / 2 ^ 32)

/-- The word of a 64-bit value that offset `o` reads, LO lying at `lo`. -/
def halfW (x : Int) (lo o : Nat) : Word := if o = lo then loW x else hiW x

/-- Current web position at station `ss` (R693). -/
def stnWeb (d : Dev) (ss : Nat) : Int :=
  let c := encOf d.force ss
  webPos (ench d c).count 0 (pitchOf d.force c) (stnOffset d.force ss)

/-- STAT of channel `c` (R127). -/
def encStat (d : Dev) (c : Nat) : Word :=
  let e := ench d c
  let ab := encAB d c
  wpack [(31, 1, (encReverse d c).toNat), (30, 1, e.los.toNat), (29, 1, e.stale.toNat), (28, 1, (speedValid d c).toNat),
    (27, 1, e.idxRefValid.toNat), (26, 1, e.corr.isSome.toNat), (1, 1, ab.1.toNat), (0, 1, ab.2.toNat)]

/-- The live registers of channel `c` at page offset `o`. -/
def liveEnc (d : Dev) (c o : Nat) : Option Word :=
  let e := ench d c
  if o = 0x00C then some (encStat d c)
  else if o = 0x110 ∨ o = 0x114 then some (halfW e.count 0x110 o)
  else if (o = 0x130 ∨ o = 0x134) ∧ c < 4 then some (halfW e.idxRef 0x130 o)
  else if o = 0x158 ∨ o = 0x15C then some (halfW e.speed 0x158 o)
  else if o = 0x160 then some (BitVec.ofNat 32 (speedLat d c))
  else none

/-- The live registers of compare unit `u` at offset `k` of its block (R129). -/
def liveCmp (d : Dev) (u k : Nat) : Option Word :=
  let x := cmpu d u
  let at' := x.next / 2 ^ 32
  if k = 0x20 then some (BitVec.ofNat 32 (wrapNat 32 x.next))
  else if k = 0x24 ∨ k = 0x28 then some (halfW at' 0x24 k)
  else if k = 0x34 then
    some ((reg d (cmpA u 0x34) &&& 0xFFFF0000) |||
      wpack [(2, 1, x.due.isSome.toNat), (1, 1, (encReverse d (cmpCh d.force u)).toNat), (0, 1, (cmpOn d.force u).toNat)])
  else if k = 0x38 ∨ k = 0x3C then some (halfW x.last 0x38 k)
  else none

/-- The live registers of the POS page (R56). -/
def livePos (d : Dev) (o : Nat) : Option Word :=
  if o = 0x104 ∨ o = 0x108 then some (halfW d.pos.sysLine 0x104 o)
  else if o = 0x10C then some (BitVec.ofNat 32 (d.pos.epoch % 256))
  else if 0x200 ≤ o ∧ o < 0x300 then
    let ss := (o - 0x200) / 0x20
    let k := o % 0x20
    if k = 0 then some (putBit (reg d (ra pgPos o)) 31 (decide (pitchOf d.force (encOf d.force ss) = 0)))
    else if k = 0x0C ∨ k = 0x10 then some (halfW (stnWeb d ss) 0x0C k)
    else none
  else none

/-- Block health of port `n` as of the last completed block (R159). -/
def liveSkein (d : Dev) (n o : Nat) : Option Word :=
  let h := (skp d n).latched
  if o = 0x160 ∨ o = 0x164 then some (halfW h.block 0x160 o)
  else if o = 0x168 then some (wpack [(24, 8, h.short), (16, 8, h.long), (8, 8, h.missing), (0, 8, h.other)])
  else none

/-- The sensor line length that context `x` of wale `w` works on. -/
def ctxLen (d : Dev) (w x : Nat) : Nat :=
  match portOfCtx d.force w x with
  | none => 0
  | some n => ff d (ra (pgSkein n) 0x108) 16 0

/-- The live registers of a wale page, `k` being its number within the wale. -/
def liveWale (d : Dev) (w k o : Nat) : Option Word :=
  let x := o / 0x400
  let b := o % 0x400
  if k = 1 ∧ b = 0x100 then
    some (putBit (reg d (ra (pgFront w) o)) 26 (bankOf d.force w x == 1))
  else if k = 2 ∧ b = 0x160 then some (wpack [(25, 7, alignDepth d.force w x (ctxLen d w x))])
  else if k = 3 ∧ b = 0x11C then some (putFld (reg d (ra (pgGeom w) o)) 31 23 (onchipDepth d.force w x))
  else none

/-- A reference line is still to come for an enabled camera of this part (R231). -/
def refWait (d : Dev) : Bool :=
  fb d (ra pgPos 0x100) 31 && (List.range 8).any (fun ss =>
    (camsOf d.force ss).any (fun c => decide (d.pos.sysLine < (wst d c.1 c.2).nextLine)))

/-- The live registers of the history page (R406). -/
def liveHist (d : Dev) (o : Nat) : Option Word :=
  if 0x140 ≤ o ∧ o < 0x180 then
    let ln := ((tat d.jobs ((o - 0x140) / 0x10)).map (fun j => j.next)).getD 0
    if o % 0x10 = 4 ∨ o % 0x10 = 8 then some (halfW ln 4 (o % 0x10)) else none
  else if 0x400 ≤ o ∧ o < 0xC00 then
    let nn := (o - 0x400) / 0x40
    let s := wst d (nn / 2) (nn % 2)
    let k := o % 0x40
    if k = 0x10 ∨ k = 0x14 then some (halfW s.hHeld 0x10 k)
    else if k = 0x18 ∨ k = 0x1C then some (halfW s.hNext 0x18 k)
    else if k = 0x2C then some (BitVec.ofNat 32 (ratioOf s.ratio))
    else none
  else none

/-- The live registers of the Border page (R368). -/
def liveBorder (d : Dev) (o : Nat) : Option Word :=
  if o = 0x114 ∨ o = 0x118 then some 0
  else if o = 0x104 ∨ o = 0x108 then some (halfW d.border.seq 0x104 o)
  else if 0x200 ≤ o ∧ o < 0x300 ∧ (o % 0x40 = 4 ∨ o % 0x40 = 8) then
    some (halfW (destNext d ((o - 0x200) / 0x40)) 4 (o % 0x40))
  else none

/-- The live registers of the TIME page (R512). -/
def liveTime (d : Dev) (o : Nat) : Option Word :=
  if o = 0x104 then
    some (putBit (putBit (putBit (reg d (timeA 0x104)) 31 d.time.valid) 30 (decide (d.time.adj ≠ 0))) 29 d.time.atLimit)
  else if o = 0x108 then some (BitVec.ofNat 32 (timeNs d))
  else if o = 0x10C ∨ o = 0x110 then some (halfW (timeSec d) 0x10C o)
  else if o = 0x114 then some (BitVec.ofNat 32 (timeStamp d % 65536))
  else if o = 0x120 then some (BitVec.ofNat 32 (wrapNat 32 (adjRest d)))
  else if o = 0x124 then some (BitVec.ofNat 32 (wrapNat 48 (adjRest d) / 2 ^ 32))
  else none

/-- The live registers of the BOOT page (R655): what the boot record and the fuses hold. -/
def liveBoot (d : Dev) (b : Boot) (o : Nat) : Option Word :=
  let r := reg d (ra pgBoot o)
  if o = 0x100 then
    some (wpack [(31, 1, (decide (d.life = .recovery)).toNat), (28, 3, if d.life = .up then (if d.restart then 3 else 7) else fld r 30 28),
      (26, 2, b.active.val), (24, 2, b.previous.val), (22, 2, b.staging.val), (21, 1, b.staged.toNat),
      (20, 1, b.confirmed.toNat), (16, 4, fld r 19 16), (13, 3, b.fails)])
  else if o = 0x118 then some (putFld (putFld r 21 16 b.secFloor) 10 8 b.keyRevoke)
  else none

/-- The live registers of every other page. -/
def liveOther (d : Dev) (b : Boot) (pg o : Nat) : Option Word :=
  if pg = pgClk ∧ o = 0x100 then
    some (putBit (putBit (reg d (ra pgClk 0x100)) 31 (decide (d.life ≠ .held 1))) 19 b.refOk ||| Config.refsPresent.setWidth 32)
  else if pg = pgDev ∧ o = 0x100 then some (putBit (reg d (ra pgDev 0x100)) 8 b.extended)
  else if pg = pgBoot then liveBoot d b o
  else if pg = pgStitch ∧ o = 0x108 then some (putBit (reg d (ra pgStitch 0x108)) 30 (refWait d))
  else if pg = pgTrk ∧ o = 0x170 then
    some (putFld (reg d (ra pgTrk 0x170)) 15 8 (ff d (ra pgTrk 0x170) 7 0))
  else if pg = pgUpd ∧ o = 0x104 then
    let s := d.upd.sess
    some (putFld (putFld (reg d (ra pgUpd 0x104)) 26 24 ((s.map (fun x => x.owner)).getD 0)) 15 0 ((s.map (fun x => x.token)).getD 0))
  else if pg = pgPtp ∧ o = 0x10C then some (putBit (reg d (ptpA 0x10C)) 30 (bestMaster d).isSome)
  else if pg = pgPair ∧ o = 0x104 then 
    some (putFld (reg d (ra pgPair 0x104)) 28 25
      (8 * b.side.toNat + 4 * d.pair.okIn.toNat + 2 * d.pair.actIn.toNat + (isPairPort d 4 && fabUp d 4).toNat))
  else if pg = pgPair ∧ (o = 0x11C ∨ o = 0x120) then some (reg d (ra (pgFabPort 4) (o - 0x14)))
  else if pg = pgWkr ∧ 0xB00 ≤ o ∧ o < 0xD00 ∧ o % 16 = 8 then
    some (putBit (reg d (wkrA o)) 31 (cellOut d ((o - 0xB00) / 16)))
  else none

/-- The word at page offset `o`, where it is not simply held. -/
def liveWord (d : Dev) (b : Boot) (pg o : Nat) : Option Word :=
  if o = 0x028 ∧ isShadowPage pg then some (putBit (reg d (ra pg 0x028)) 31 (tat d.arming pg).armed)
  else if 0x10 ≤ pg ∧ pg < 0x18 then liveEnc d (pg - 0x10) o
  else if pg = pgCmp ∧ 0x100 ≤ o ∧ o < 0x700 then liveCmp d ((o - 0x100) / 0x40) (o % 0x40)
  else if pg = pgPos then livePos d o
  else if 0x20 ≤ pg ∧ pg < 0x30 then liveSkein d (pg - 0x20) o
  else if 0x100 ≤ pg ∧ pg < 0x200 then liveWale d ((pg - 0x100) / 16) (pg % 16) o
  else if pg = pgHist then liveHist d o
  else if pg = pgBorder then liveBorder d o
  else if pg = pgTime then liveTime d o
  else liveOther d b pg o

/-- The word at BAR0 byte offset `a` as a snapshot copies it, no read latch disturbed (R664). -/
def viewWord (d : Dev) (b : Boot) (a : Nat) : Word := (liveWord d b (a / 4096) (a % 4096)).getD (reg d a)

/-- The offsets that a read of page offset `o` latches. -/
def latches (pg o : Nat) : List Nat :=
  if 0x10 ≤ pg ∧ pg < 0x18 then (if o = 0x110 ∨ o = 0x130 ∨ o = 0x158 then [o + 4] else [])
  else if pg = pgCmp ∧ 0x100 ≤ o ∧ o < 0x700 then
    (if o % 0x40 = 0x24 then [o - 4, o + 4] else if o % 0x40 = 0x38 then [o + 4] else [])
  else if pg = pgPos then (if o = 0x104 ∨ (0x200 ≤ o ∧ o < 0x300 ∧ o % 0x20 = 0x0C) then [o + 4] else [])
  else if 0x20 ≤ pg ∧ pg < 0x30 then (if o = 0x160 then [0x164, 0x168] else [])
  else if 0x100 ≤ pg ∧ pg < 0x200 ∧ pg % 16 = 2 then (if o % 0x400 = 0x174 then [o + 4] else [])
  else if pg = pgHist then
    (if 0x140 ≤ o ∧ o < 0x180 ∧ o % 0x10 = 4 then [o + 4]
     else if 0x400 ≤ o ∧ o < 0xC00 ∧ o % 0x40 = 0x10 then [o + 4, o + 8, o + 12] else [])
  else if pg = pgBorder then (if o = 0x104 ∨ (0x200 ≤ o ∧ o < 0x300 ∧ o % 0x40 = 4) then [o + 4] else [])
  else if pg = pgTime then (if o = 0x108 then [0x10C, 0x110, 0x114] else if o = 0x120 then [0x124] else [])
  else if pg = pgPair then (if o = 0x124 then [0x128] else [])
  else []

/-- The offsets whose words such a read latches them for. -/
def isLatched (pg o : Nat) : Bool :=
  [4, 8, 12].any (fun k => decide (k ≤ o) && (latches pg (o - k)).contains o) || (latches pg (o + 4)).contains o

/-- A read of one aligned word of a mapped page, with its side effects (R14, R56). -/
def readWord (d : Dev) (b : Boot) (a : Nat) : Dev × Word :=
  let pg := a / 4096
  let o := a % 4096
  if isLatched pg o then (d, tget (fun _ => 0) d.latch a)
  else
    let d' := (latches pg o).foldl (fun (d : Dev) k =>
      { d with latch := tput (fun _ => 0) d.latch (ra pg k) (viewWord d b (ra pg k)) }) d
    (d', viewWord d b a)

/-! ### BAR2 (R666) -/

/-- Byte `i` of a number, little-endian. -/
def byteOf (x i : Nat) : Byte := BitVec.ofNat 8 (x / 256 ^ i)

/-- Byte at offset `o` of the window of wale `w` (R185, R202, R272). -/
def waleByte (d : Dev) (m : Mem) (w o : Nat) : Byte :=
  if 0x480000 ≤ o ∧ o < 0x4C0000 then
    let k := o - 0x480000
    byteOf (bgWord d w (k / 0x20000) (k % 0x20000 / 4)) (k % 4)
  else tget zeroByte m.tbl (0x800000 * w + o)

/-- Byte at `o` of the QDR window (R435). -/
def qdrByte (d : Dev) (m : Mem) (o : Nat) : Byte :=
  if d.qdrBad.contains (o / 64) then 0xFF
  else if o < 0x4000000 then byteOf ((tat d.trk.slots (o / 64)).getD (o % 64 / 8) 0).toNat (o % 8)
  else if o < 0x6000000 then
    let k := (o - 0x4000000) / 64
    let i := (k + storeSize - d.border.base % storeSize) % storeSize
    match d.border.store[i]? with
    | some r => byteOf ((recWords r.body).getD (o % 64 / 8) 0).toNat (o % 8)
    | none => 0
  else if o < 0x6010000 then tget zeroByte m.qdr (o - 0x6000000)
  else if o < 0x6100000 then Config.journalByte o
  else 0

/-- Byte `a` of the LPDDR5X through the aperture (R666). -/
def lpxByte (d : Dev) (m : Mem) (a : Nat) : Byte := if a < lpxSize d then tget (lpxDef m) m.lpx a else 0xFF

/-- The LPDDR5X address of aperture offset `o`. -/
def aperture (d : Dev) (o : Nat) : Nat := rf d (ra pgDev 0x108) 7 0 * 2 ^ 29 + o

/-- The window of BAR2 that holds offset `o` (R666): 0 to 15 a wale, 16 QDR, 17 LPDDR5X, 18 update. -/
def barWindow (o : Nat) : Option Nat :=
  if o < 0x8000000 then some (o / 0x800000)
  else if o < 0x10000000 then some 16
  else if o < 0x30000000 then some 17
  else if o < 0x30010000 then some 18
  else none

/-- One byte of BAR2 as read. -/
def barByte (d : Dev) (m : Mem) (o : Nat) : Byte :=
  match barWindow o with
  | none => 0xFF
  | some w =>
    if w < 16 then waleByte d m w (o % 0x800000)
    else if w = 16 then qdrByte d m (o - 0x8000000)
    else if w = 17 then lpxByte d m (aperture d (o - 0x10000000))
    else tget zeroByte m.win (o - 0x30000000)

end Sys2Proof.Machine
end

