-- ==== Sys2Proof/Machine/Snap.lean ====
section
/-!
DEFINITION. Snapshots: what each page latches, and how the triggers of a snapshot meet one in progress (R69, R70,
R615, R616, R664).
-/

namespace Sys2Proof.Machine

/-- Every page of BAR0. -/
def allPages : List Nat := (List.range 0x267).filter (fun pg => (pageInfo pg).isSome)

/-- Offset of the first word a page copies: SNAP_CTRL.BASE as stored (R664). -/
def snapBase (d : Dev) (pg : Nat) : Nat := rf d (ra pg 0x020) 11 0

/-- Page `pg` latches the words it shows in `s`, if it is armed (R664, R69). -/
def snapPage (s : Dev) (b : Boot) (d : Dev) (pg : Nat) : Dev :=
  if rb s (ra pg 0x020) 31 then
    let seq := rf d (ra pgSnap 0x104) 15 0
    let d := (List.range 48).foldl (fun d i =>
      setReg d (ra pg (0x040 + 4 * i)) (viewWord s b (ra pg (snapBase s pg + 4 * i)))) d
    setReg d (ra pg 0x024) (wpack [(24, 8, s.pos.epoch), (0, 16, seq)])
  else d

/-- A snapshot is latching (R616). -/
def snapBusy (d : Dev) : Bool := rb d (ra pgSnap 0x104) 31

/-- A snapshot starts: every armed page latches on the present edge (R70, R615). -/
def snapTake (d : Dev) (b : Boot) (source : Nat) : Dev :=
  let a := ra pgSnap 0x104
  let s := d
  let d := wrapBy (poke (pokeBit d a 31 true) a 18 16 source) a 15 0 1
  allPages.foldl (snapPage s b) d

/-- A trigger of a snapshot: by register 1, Wicker 2, an epoch commit 3 or an error 4 (R615, R616). -/
def snapTrigger (d : Dev) (b : Boot) (source : Nat) : Dev :=
  if snapBusy d then
    match source with
    | 1 => pokeBit d (ra pgSnap 0x104) 30 true
    | 3 => { d with health := { d.health with snapWaits := true } }
    | 4 => evt (count d (ra pgSnap 0x108)) pgSnap 1
    | _ => d
  else snapTake d b source

/-- The snapshot in progress completes; an epoch trigger that waits latches now (R616, R623). -/
def snapDone (d : Dev) (b : Boot) : Dev :=
  if snapBusy d then
    let d := evt (pokeBit d (ra pgSnap 0x104) 31 false) pgSnap 0
    if d.health.snapWaits then snapTake { d with health := { d.health with snapWaits := false } } b 3 else d
  else d

end Sys2Proof.Machine
end

