-- ==== Sys2Proof/Machine/Epoch.lean ====
section
/-!
DEFINITION. Epoch commits of the fabric and the frames that carry the reference (R472, R480 to R488), and the
role of a part in a Pairing as the other blocks see it (R517, R519).
-/

namespace Sys2Proof.Machine

/-- FAB_EPOCH_STAT. -/
def epochStatA : Nat := ra pgFab 0x140

/-- Members named by FAB_MEMBERS. -/
def members (d : Dev) : List Nat := bitIdx 64 (reg64 d (ra pgFab 0x110))

/-- The reference is on another node (R56). -/
def remoteRef (d : Dev) : Bool := fb d (ra pgPos 0x100) 31

/-- The newest position step of the reference encoder: STEP_SEQ and STEP_MOVE (R472). -/
def refStep (d : Dev) : Nat × Int :=
  let e := ench d (encOf d.force (ff d (ra pgPos 0x100) 2 0))
  (e.mark.count % 256, (e.steps.getLast?.map (fun s => s.2)).getD 0)

/-- A REF_LINE frame, or a REF_IDLE without a stamp (R472). -/
def refFrame (d : Dev) (st : Option Stamp) (decided : Bool) : List Dword :=
  let step := refStep d
  let t := (st.map (fun s => s.time)).getD 0
  let ns := t / 65536
  [dpack [(60, 4, if st.isSome then 0 else 1), (59, 1, decided.toNat), (58, 1, d.node.lastCommitted.toNat),
      (55, 3, d.node.lastFlags), (40, 8, d.pos.epoch), (32, 8, step.1), (0, 32, (reg d (ra pgFab 0x144)).toNat)],
    dpack [(0, 64, d.pos.sysLine)],
    dpack [(0, 64, sf 64 ((st.map (fun s => s.tick)).getD 0))],
    dpack [(0, 64, sf 64 ((st.map (fun s => s.web)).getD 0))],
    dpack [(0, 64, ns / 1000000000)],
    dpack [(32, 32, ns % 1000000000), (16, 16, t % 65536), (0, 16, (st.map (fun s => s.frac)).getD 0)],
    dpack [(0, 64, sf 64 step.2)]]

/-- The master broadcasts a reference frame (R472). -/
def sendRef (d : Dev) (st : Option Stamp) (decided : Bool) : Dev :=
  if isMaster d then
    originate { d with node := { d.node with refSent := d.cycle } } 2 none (refFrame d st decided)
  else d

/-- The pages armed for epoch commit `id`: one commit group (R483). -/
def epochGroup (d : Dev) (id : Nat) : List Nat :=
  (armedPages d).filter (fun pg => decide ((armOf d pg).mode = 3) && decide ((armOf d pg).pos % 2 ^ 32 = id))

/-- What this node votes on a PREPARE (R485, R488). -/
def epochVote (d : Dev) (m : Mem) (p : EpochPrep) : Bool :=
  let pages := epochGroup d p.id
  let fs := (groupFaults d m pages).filter
    (fun at' => at'.any (fun x => pages.contains x.1))
  decide (d.pos.sysLine < p.line) &&
    (pages.isEmpty || (fs.isEmpty && !pairDenied d pages && !pages.any (fun pg => modeDenied d (armOf d pg) || jobHolds d pg)))

/-- The decision takes effect on this node: the snapshot, the group, the alignment and the events (R487). `ep` is
the epoch that results. -/
def epochCommit (d : Dev) (m : Mem) (b : Boot) (id flags ep : Nat) : Dev × List Fire :=
  let d := if flags.testBit 1 then snapTrigger d b 3 else d
  let pages := epochGroup d id
  let r := if pages.isEmpty then (d, [], true) else commitGroup d m pages ep
  let q := thenPresets m d (r.1, r.2.1)
  let d := if flags.testBit 2 && rb d (encA 0 0x180) 1 then alignAll q.1 else q.1
  (evt d pgFab 5, q.2)

/-- An abort: armed blocks stay armed and say so (R487). -/
def epochAbort (d : Dev) (id : Nat) : Dev :=
  evt ((epochGroup d id).foldl (fun d pg => pokeBit d (commitStatA pg) 28 true) d) pgFab 6

/-- The master decides as it forms line L of its pending commit (R486). -/
def decideEpoch (d : Dev) (m : Mem) (b : Boot) (p : EpochPrep) : Dev × List Fire :=
  let voted := fun k => d.node.votes.any (fun v => decide (v.1 = k) && v.2)
  let miss := (members d).filter (fun k => !voted k)
  let word := fun base => miss.foldl (fun a k => if base ≤ k ∧ k < base + 32 then a + 2 ^ (k - base) else a) 0
  let ok := miss.isEmpty
  let d := { d with node := { d.node with own := none, votes := [], prep := none, lastCommitted := ok, lastFlags := p.flags } }
  let d := poke (pokeBit d epochStatA 31 false) epochStatA 30 28 (if ok then 1 else 2)
  let d := setReg d (ra pgFab 0x144) (BitVec.ofNat 32 p.id)
  let d := setReg (setReg d (ra pgFab 0x148) (BitVec.ofNat 32 (word 0))) (ra pgFab 0x14C) (BitVec.ofNat 32 (word 32))
  if ok then
    let recipe := p.flags.testBit 0
    let ep := if recipe || d.pos.epochPending then nextEpoch d else d.pos.epoch % 256
    let r := epochCommit d m b p.id p.flags ep
    ({ r.1 with pos := { r.1.pos with epochPending := r.1.pos.epochPending || recipe } }, r.2)
  else (epochAbort d p.id, [])

/-- A write of FAB_EPOCH_GO.GO (R484). -/
def epochGo (d : Dev) (m : Mem) : Dev :=
  let line := reg64 d (ra pgFab 0x134)
  let id := (reg d (ra pgFab 0x130)).toNat
  let flags := rf d (ra pgFab 0x13C) 2 0
  if rb d epochStatA 31 ∨ line < d.pos.sysLine + rf d (ra pgFab 0x12C) 15 0 ∨ id = 0 ∨ !isMaster d ∨ remoteRef d then
    poke d epochStatA 30 28 4
  else
    let p : EpochPrep := { id := id, line := line, flags := flags }
    let d := pokeBit d epochStatA 31 true
    let d := { d with node := { d.node with own := some p, prep := some p, votes := [(myId d, epochVote d m p)] } }
    originate d 2 none [dpack [(60, 4, 2), (55, 3, flags), (0, 32, id)], dpack [(0, 64, line)]]

/-- A PREPARE arrives: this node votes (R485). -/
def prepareArrive (d : Dev) (m : Mem) (src : Nat) (ws : List Dword) : Dev :=
  let p : EpochPrep := { id := dfld (dwAt ws 0) 31 0, line := (dwAt ws 1).toNat, flags := dfld (dwAt ws 0) 57 55 }
  let ok := epochVote d m p
  let d := { d with node := { d.node with prep := some p } }
  originate d 2 (some src) [dpack [(60, 4, 3), (59, 1, ok.toNat), (0, 32, p.id)]]

/-- A vote reaches the master (R485, R486). A vote on another commit, or one that comes late, counts for nothing. -/
def voteArrive (d : Dev) (src : Nat) (ws : List Dword) : Dev :=
  match d.node.own with
  | none => d
  | some p =>
    if dfld (dwAt ws 0) 31 0 = p.id then
      let vs := (d.node.votes.filter (fun v => decide (v.1 ≠ src))) ++ [(src, dfld (dwAt ws 0) 59 59 == 1)]
      { d with node := { d.node with votes := vs } }
    else d

end Sys2Proof.Machine
end

