-- ==== Sys2Proof/Machine/Trigger.lean ====
section
/-!
DEFINITION. Issuing a trigger: the stamp, the reference line and the commits it brings, the output's pin and
message, and the line slot (R24 to R36, R46, R48 to R53, R109, R123, R124, R142, R333, R472, R697).
-/

namespace Sys2Proof.Machine

/-- The committed pitch of channel `c` takes effect at a line of tick `t` and fraction `f`: the offsets keep the web
position continuous, but for stations whose offset the same commit wrote (R28, R29). -/
def settlePitch (d : Dev) (c : Nat) (t : Int) (f : Nat) : Dev :=
  let e := ench d c
  match e.pitchOld with
  | none => d
  | some old =>
    let q := t * 65536 + f
    let move := roundShr (q * old) 40 - roundShr (q * pitchOf d.force c) 40
    let d := setEnc d c { e with pitchOld := none, pitchKeep := [] }
    ((List.range 8).filter (fun ss => decide (encOf d.force ss = c) && !e.pitchKeep.contains ss)).foldl (fun d ss =>
      let o := stnOffset d.force ss + move
      let a := ra pgPos (0x204 + 0x20 * ss)
      let put := fun d => setReg (setReg d a (loW o)) (a + 4) (hiW o)
      setForce (setForce (put d) a (loW o)) (a + 4) (hiW o)) d

/-- A trigger of camera port `n` is one of the reference camera (R34, R480). -/
def isReference (d : Dev) (n : Nat) : Bool :=
  let r := inForce d (ra pgPos 0x100)
  !bitOf r 31 && decide (fld r 11 8 = n) && decide (stationOf d.force n = some (fld r 2 0)) && portOn d.force n

/-- The system line number advances at a reference trigger; what is due at the new line L takes effect, and the
epoch counts it (R34, R48, R486, R697). The answer tells whether a decision takes effect at L. -/
def refAdvance (d : Dev) (m : Mem) (b : Boot) : Dev × List Fire × Bool :=
  let l := if d.pos.refSeen then d.pos.sysLine + 1 else d.pos.sysLine
  let d := { d with pos := { d.pos with sysLine := l, refSeen := true } }
  let due := d.node.own.filter (fun p => decide (p.line ≤ l))
  let a := match due with
    | some p => decideEpoch d m b p
    | none => (d, [])
  let c := commitLine a.1 m
  let d := c.1
  let d := if d.pos.epochPending then
      let d := { d with pos := { d.pos with epoch := d.pos.epoch + 1, epochPending := false } }
      pushMarker d (markerRec d 1 0 l 0 0)
    else d
  (d, a.2 ++ c.2, due.isSome)

/-- The stamp of a line of camera port `n` of station `ss`, triggered on the present edge at tick `t` and fraction
`f` (R46, R52, R53, R333). -/
def formStamp (d : Dev) (n ss : Nat) (t : Int) (f : Nat) (late : Bool) : Stamp :=
  let c := encOf d.force ss
  let e := ench d c
  let line := d.pos.sysLine
  { camLine := (skp d n).nextLine, sysLine := line, encCh := c, tick := t, frac := f,
    web := webPos t f (pitchOf d.force c) (stnOffset d.force ss + camOffset d.force n), time := lineTime d,
    epoch := d.pos.epoch, late := late, note := decide (e.mark.before = some line) || decide (d.pos.timeMark = some line),
    cycle := d.cycle, step := e.mark.count, tstep := d.pos.timeSteps, ver := d.ver }

/-- A line stamp takes its place among the newest of its channel (R332). -/
def keepStamp (d : Dev) (st : Stamp) : Dev :=
  { d with pos := { d.pos with lastStamp := tset d.pos.lastStamp st.encCh (some st), lastAny := some st } }

/-- A reference line is stamped: its place among the reference lines, and its frame to the fabric (R216, R472). -/
def keepRef (d : Dev) (st : Stamp) (decided : Bool) : Dev :=
  let d := { d with pos := { d.pos with refStamp := some st }, refLines := tins d.refLines st.sysLine (some st) }
  sendRef d (some st) decided

/-- A line trigger of camera port `n` on the present edge, `ref` telling whether it is one of the reference camera:
what takes effect at it, and its stamp, which takes the port's next line number; none where the port has been
disabled meanwhile (R32, R35, R36). -/
def stampLine (d : Dev) (m : Mem) (b : Boot) (n : Nat) (t : Int) (f : Nat) (late ref : Bool) :
    Dev × List Fire × Option Stamp :=
  let r := if ref then refAdvance d m b else (d, [], false)
  let d := r.1
  match stationOf d.force n with
  | none => (d, r.2.1, none)
  | some ss =>
    if !portOn d.force n then (d, r.2.1, none)
    else
      let c := encOf d.force ss
      let d := settlePitch d c t f
      let st := formStamp d n ss t f late
      let bad := webRange t f (pitchOf d.force c) (stnOffset d.force ss + camOffset d.force n)
      let d := if bad then raise d pgPos 0x23 1 4 c else d
      let d := keepStamp (setSkp d n { (skp d n) with nextLine := st.camLine + 1 }) st
      let d := if ref then keepRef d st r.2.2 else d
      (d, r.2.1, some st)

/-- Address of a register of trigger output `nn` (R130). -/
def trgA (nn o : Nat) : Nat := ra pgTrg (0x100 + 0x10 * nn + o)

/-- The pin and the message of output `nn` (R124, R139); a standby part drives neither (R519). -/
def drivePulse (d : Dev) (nn : Nat) (line : Option Nat) : Dev :=
  if pairMuted d then d
  else
    let g := inForce d (trgA nn 0)
    let dl := inForce d (trgA nn 8)
    let d := if bitOf g 31 then
        emit d (.trigPin nn (d.cycle + fld dl 31 16) (fld dl 7 0) (Nat.max 4 (fld g 15 0)) (bitOf g 29))
      else d
    if bitOf g 30 && txOn d nn then emit d (.pulseMsg nn (line.map (fun l => l % 65536))) else d

/-- PAIR_TIMING.TRIG_TOL in control-clock cycles. -/
def trigTol (d : Dev) : Nat := rf d (ra pgPair 0x114) 15 8

/-- Two edges lie within TRIG_TOL of each other (R523). -/
def trigNear (d : Dev) (a b : Nat) : Bool := decide (a ≤ b + trigTol d) && decide (b ≤ a + trigTol d)

/-- A standby part remembers a compare unit's trigger until a pulse on the trigger bus confirms it; one that came just
before confirms it at once (R523, R533). Marks too old to matter are dropped. -/
def markTrigger (d : Dev) (nn line : Nat) (byUnit : Bool) : Dev :=
  if standby d && byUnit then
    let ms := d.pair.trigs.filter (fun k => decide (d.cycle ≤ k.edge + 512))
    match ms.find? (fun k => k.seen && decide (k.nn = nn) && trigNear d k.edge d.cycle) with
    | some k => { d with pair := { d.pair with trigs := ms.erase k } }
    | none => { d with pair := { d.pair with trigs := ms ++ [{ nn := nn, edge := d.cycle, camLine := line }] } }
  else d

/-- Output `nn` issues one trigger (R123, R124, R130, R142). -/
def issueOut (d : Dev) (m : Mem) (b : Boot) (nn : Nat) (f : Fire) : Dev × List Fire :=
  let d := wrapBy d (trgA nn 0xC) 31 0 1
  let d := if f.late && f.unit.isSome then evt d pgTrg nn else d
  if portOn d.force nn then
    let r := stampLine d m b nn f.tick f.frac f.late (isReference d nn)
    match r.2.2 with
    | none => (drivePulse r.1 nn none, r.2.1)
    | some st =>
      let d := markTrigger (drivePulse r.1 nn (some st.camLine)) nn st.camLine f.unit.isSome
      (openSlot d m nn st, r.2.1)
  else (drivePulse d nn none, [])

/-- One trigger: the output it drives, if any, and then the corrections that wait for its unit (R109). -/
def issueFire (d : Dev) (m : Mem) (b : Boot) (f : Fire) : Dev × List Fire :=
  let r := match f.out with
    | none => (d, [])
    | some nn => issueOut d m b nn f
  match f.unit with
  | none => r
  | some u => (lineCmpDue r.1 u, r.2)

/-- Whether a trigger drives the reference camera, which takes its number first (R36). -/
def firesRef (d : Dev) (f : Fire) : Bool := (f.out.map (isReference d)).getD false

/-- Issue every trigger of the present edge, that of the reference camera first, with those that commits on this
edge ask for (R36, R119). -/
def runFires (m : Mem) (b : Boot) : Nat → Dev → List Fire → Dev
  | 0, d, _ => d
  | _, d, [] => d
  | n + 1, d, f :: fs =>
    match (f :: fs).find? (firesRef d) with
    | some g =>
      let r := issueFire d m b g
      runFires m b n r.1 ((f :: fs).erase g ++ r.2)
    | none =>
      let r := issueFire d m b f
      runFires m b n r.1 (fs ++ r.2)

/-- Issue the triggers that an operation asks for. -/
def settle (m : Mem) (b : Boot) (r : Dev × List Fire) : Dev := runFires m b 256 r.1 r.2

/-- A trigger of output `nn` that is not a compare unit's: held while REVERSE is set on the channel of the camera's
station, and stamped with the count (R53, R121). -/
def outsideTrigger (d : Dev) (m : Mem) (b : Boot) (nn : Nat) : Dev :=
  let c := (stationOf d.force nn).map (encOf d.force)
  if (c.map (encReverse d)).getD false then d
  else settle m b (d, [{ out := some nn, tick := (c.map (fun k => (ench d k).count)).getD 0 }])

end Sys2Proof.Machine
end

