-- ==== Sys2Proof/Machine/Motion.lean ====
section
/-!
DEFINITION. How the count moves: filtered edges, the even spread of SSI readings and relayed samples, jumps, and what
each move brings with it; and the passing of control-clock edges (R93 to R104, R109, R117, R119, R478, R662).
-/

namespace Sys2Proof.Machine

/-- The count of channel `c` steps by one tick: hits under the values in force, then the commits this count reaches,
then the triggers (R117, R119, R662). -/
def encStep (d : Dev) (m : Mem) (b : Boot) (c : Nat) (by' : Int) : Dev :=
  let d := stepCount d c by'
  let r := unitsStep d c (decide (0 < by'))
  let q := commitReached m (if 0 < by' then tickReached r.1 c none else []) r.1
  settle m b (q.1, r.2 ++ q.2)

/-- The count of channel `c` jumps to `n`, with the note of kind `kind` (R104, R109, R119, R122, R662). -/
def encJump (d : Dev) (m : Mem) (b : Boot) (c : Nat) (n : Int) (kind : Nat) (dev : Int) : Dev :=
  let old := (ench d c).count
  let r := unitsJump (jumpCount d c n kind dev) c
  let q := commitReached m (if old < n then tickReached r.1 c (some old) else []) r.1
  settle m b (q.1, r.2 ++ q.2)

/-! ### The even spread -/

/-- The edge of the next step of a spread, if one is left (R103). -/
def spreadNext (e : EncCh) : Option Nat :=
  let s := e.spread
  if s.done < s.total.natAbs ∧ !e.los ∧ !e.stale then some (s.start + (s.done + 1) * s.period / s.total.natAbs) else none

/-- The channel whose spread steps next, with the edge. -/
def spreadDue (d : Dev) : Option (Nat × Nat) :=
  [4, 5, 6, 7].foldl (fun (best : Option (Nat × Nat)) c =>
    match spreadNext (ench d c), best with
    | some t, some q => if t < q.2 then some (c, t) else best
    | some t, none => some (c, t)
    | none, _ => best) none

/-- One step of the spread of channel `c`. -/
def spreadStep (d : Dev) (m : Mem) (b : Boot) (c : Nat) : Dev :=
  let e := ench d c
  let s := e.spread
  encStep (setEnc d c { e with spread := { s with done := s.done + 1 } }) m b c (if s.total < 0 then -1 else 1)

/-- Take the steps of every spread up to edge `t`. -/
def spreadTo (m : Mem) (b : Boot) (t : Nat) : Nat → Dev → Dev
  | 0, d => d
  | n + 1, d =>
    match spreadDue d with
    | none => d
    | some (c, at') => if at' ≤ t then spreadTo m b t n (spreadStep (clockTo d at') m b c) else d

/-- Steps left in all spreads. -/
def spreadLeft (d : Dev) : Nat :=
  [4, 5, 6, 7].foldl (fun n c => n + ((ench d c).spread.total.natAbs - (ench d c).spread.done)) 0

/-- Control-clock edges pass up to edge `t`, never back (DESIGN CHOICE, log 5). -/
def elapse (d : Dev) (m : Mem) (b : Boot) (t : Nat) : Dev :=
  if d.life = .up then clockTo (spreadTo m b t (spreadLeft d) d) t else clockTo d t

/-- What is left of a spread, signed. -/
def spreadRest (s : Spread) : Int := if s.total < 0 then s.total + s.done else s.total - s.done

/-- A change of `delta` ticks joins what is left of the spread, over `period` cycles from now (R103). -/
def spreadBy (d : Dev) (c : Nat) (delta : Int) (period : Nat) : Dev :=
  let e := ench d c
  setEnc d c { e with spread := { total := spreadRest e.spread + delta, start := d.cycle, period := Nat.max 1 period, done := 0 } }

/-! ### Edges of incremental channels -/

/-- A filtered change of one or both levels of channel `c` (R95 to R97, R662). -/
def abChange (d : Dev) (m : Mem) (b : Boot) (c : Nat) (a' b' : Bool) : Dev :=
  let e := ench d c
  let s0 := encAB d c
  let d1 := setEnc d c { e with a := a', b := b' }
  let s1 := encAB d1 c
  if counting d c then
    if e.a != a' && e.b != b' then illegalEdge d1 c
    else
      match quadTick (inForce d (encA c 0x100)) s0.1 s1.1 s1.2 with
      | none => d1
      | some k => encStep d1 m b c k
  else d1

/-- `n` samples of the two inputs of channel `c` at one pair of levels (R93): each input's filter, and the changes
at their samples. -/
def encBatch (d : Dev) (m : Mem) (b : Boot) (c : Nat) (va vb : Bool) (n : Nat) : Dev :=
  let e := ench d c
  let start := Nat.max e.sampled d.cycle
  let filt := ff d (encA c 0x100) 27 24
  let fa := filterInput filt e.a e.runA va n
  let fb := filterInput filt e.b e.runB vb n
  let gl := fa.glitch.toNat + fb.glitch.toNat
  let d := setEnc d c { e with runA := fa.run, runB := fb.run, sampled := start + n }
  let d := if encOn d c && decide (0 < gl) then countBy d (encA c 0x138) 15 0 gl else d
  let at' := fun d k => elapse d m b (start + k - 1)
  match fa.change, fb.change with
  | none, none => d
  | some k, none => abChange (at' d k) m b c va e.b
  | none, some k => abChange (at' d k) m b c e.a vb
  | some j, some k =>
    if j = k then abChange (at' d k) m b c va vb
    else if j < k then abChange (at' (abChange (at' d j) m b c va e.b) k) m b c va vb
    else abChange (at' (abChange (at' d k) m b c e.a vb) j) m b c va vb

/-! ### SSI frames and relayed samples -/

/-- A frame of SSI channel `c` as clocked in (R101 to R104). The first accepted frame after ENABLE, and the first
after STALE, set the count at once (DEDUCED, log 26). -/
def ssiFrame (d : Dev) (m : Mem) (b : Boot) (c : Nat) (f : SsiFrame) : Dev :=
  if !counting d c then d
  else
    let causes := ssiCauses d c f
    if causes ≠ 0 then ssiReject d c causes
    else
      let cfg := inForce d (encA c 0x140)
      let e := ench d c
      let r := ssiReading cfg f
      let pos := ssiPos (fld cfg 31 26) e r
      let d := poke d (encA c 0x144) 15 8 0
      let direct := e.stale || e.rPrev.isNone
      let d := setEnc d c { e with rPrev := some r, pos := pos, failRun := 0, stale := false, spread := if direct then {} else e.spread }
      if direct then encJump d m b c pos 4 0
      else spreadBy d c (pos - e.pos) (40 * ff d (encA c 0x148) 15 0)

/-- One sample of a relay as it takes effect: spread over its period, or a jump when the change is more than the
spread allows (R478). -/
def relayApply (d : Dev) (m : Mem) (b : Boot) (r : Nat) (n : Int) : Dev :=
  let c := 6 + r
  let per := rf d (ra pgFab (0x160 + 4 * r)) 15 0
  let last := (tat d.node.relays r).last
  let d := { d with node := { d.node with relays := tmod d.node.relays r (fun x => { x with last := some n }) } }
  let jump := fun d => encJump (setEnc d c { (ench d c) with stale := false, spread := {}, pos := n }) m b c n 4 0
  match last with
  | none => jump d
  | some o =>
    if (ench d c).stale || decide ((n - o).natAbs > per / 10) then jump d
    else spreadBy (setEnc d c { (ench d c) with pos := n }) c (n - o) per

/-- STALE of a channel whose readings have stopped (R104, R478). -/
def setStale (d : Dev) (c : Nat) : Dev :=
  if (ench d c).stale then d
  else raise (encEvt (setEnc d c { (ench d c) with stale := true, spread := {} }) c 11) (pgEnc c) 0x21 2 4 c

/-! ### Instants -/

/-- Predicted instants of compare units that fall on edge `t`. -/
def dueOn (d : Dev) (t : Nat) : List Nat :=
  (List.range 24).filter (fun u => cmpOn d.force u && decide ((cmpu d u).due = some t))

/-- The predicted instant of unit `u`: every point due on that edge fires, so that the reference trigger can take
its number first (R36, R117). -/
def dueInstant (d : Dev) (m : Mem) (b : Boot) (u : Nat) : Dev :=
  match (cmpu d u).due with
  | none => d
  | some t =>
    let d := elapse d m b t
    if (cmpu d u).due = some t ∧ cmpOn d.force u then settle m b (eachUnit fireUnit (dueOn d t) d) else d

/-- A waiting late pulse is issued once MIN_INTERVAL has passed (R121, R122). -/
def latePulse (d : Dev) (m : Mem) (b : Boot) (u : Nat) : Dev :=
  if !(cmpu d u).lateWait then d
  else
    let d := elapse d m b (((cmpu d u).tFire.getD 0) + ff d (cmpA u 0) 15 0)
    if (cmpu d u).lateWait && !tooSoon d u then settle m b (fireLate d u) else d

/-- The timer of output `nn` expires (R121, R123). -/
def timerTrigger (d : Dev) (m : Mem) (b : Boot) (nn : Nat) : Dev :=
  let d := if ff d (trgA nn 0) 28 27 = 1 then elapse d m b (tat d.trg nn).timerAt else d
  if ff d (trgA nn 0) 28 27 = 1 then
    let d := { d with trg := tmod d.trg nn (fun x => { x with timerAt := x.timerAt + (inForce d (trgA nn 4)).toNat }) }
    outsideTrigger d m b nn
  else d

/-- A pending index correction whose trigger has been issued is applied (R30, R109). -/
def applyCorr (d : Dev) (m : Mem) (b : Boot) (c : Nat) : Dev :=
  let e := ench d c
  match e.corr, e.corrDue with
  | some k, some _ =>
    let d := encEvt (idxCount (setEnc d c { e with corr := none, corrDue := none }) c 15 8) c 2
    encJump d m b c (e.count + k) 2 (-k)
  | _, _ => d

/-- A commit group that the host starts, with the triggers it asks for (R119, R662). -/
def commitNow (d : Dev) (m : Mem) (b : Boot) : Dev := settle m b (commitImmediate d m)

end Sys2Proof.Machine
end

