-- ==== Sys2Proof/Machine/Camera.lean ====
section
/-!
DEFINITION. What reaches a camera port: line starts, packets and line ends, also behind a pending image header, and
the instants at which slots close (R142 to R152); free-running cameras (R33, R148, R149); lane events, GPIO, and the
loops and scans of lanes (R132 to R136, R140, R141, R164 to R167, R447, R448).
-/

namespace Sys2Proof.Machine

/-- The camera of port `n` runs free (R33, R123). -/
def freeRuns (d : Dev) (n : Nat) : Bool := decide (ff d (trgA n 0) 28 27 = 3)

/-- WD_TIME of port `n` under values in force `f`. -/
def wdTime (f : Tbl Word) (n : Nat) : Nat := (vw f (ra (pgSkein n) 0x114)).toNat

/-- The gap record of a stall, from the last line before it to the first after it (R55, R148). -/
def stallGap (d : Dev) (n : Nat) (after : Stamp) : Dev :=
  match (skp d n).lastLine with
  | none => d
  | some s =>
    (ownedPiece d.force n 0x09).foldl (fun d p =>
      let g : GapRun := {
        cause := p.cause, left := p.left, width := p.width, cls := p.cls, station := (stationOf d.force n).getD 0,
        firstNo := s.sysLine, lastNo := after.sysLine, first := s, last := after }
      closeGap d g) d

/-- A line start of a free-running camera opens and fills a slot at once (R33, R53, R148, R149). -/
def freeStart (d : Dev) (m : Mem) (b : Boot) (n t fmt : Nat) : Dev :=
  let d := ageLines d m n
  let c := ((stationOf d.force n).map (encOf d.force)).getD 0
  let rev := encReverse d c
  let r := stampLine d m b n (ench d c).count 0 false (isReference d n && !rev)
  match r.2.2 with
  | none => settle m b (r.1, r.2.1)
  | some st =>
    let d := r.1
    let d := if (skp d n).stalled then stallGap d n st else d
    let d := if rev then skCount d n 13 else d
    let p := skp d n
    let s : Slot := { stamp := st, winLo := t, winHi := t, deadline := t + wdTime d.force n, trigAt := t, started := true,
                      startAt := t, reverse := rev }
    let d := setSkp d n { p with slots := p.slots ++ [s], cur := some st.camLine, discard := false, lastStart := some t,
                                 stalled := false, lastLine := some st }
    let d := if fmt ≠ ff d (ra (pgSkein n) 0x108) 31 28 then settleSlots (closeSlot d n st.camLine 0x06) m n else d
    settle m b (d, r.2.1)

/-- A valid image header of instant `t` starts a line (R143, R148). -/
def lineStartAt (d : Dev) (m : Mem) (b : Boot) (n t fmt : Nat) : Dev :=
  if freeRuns d n then freeStart d m b n t fmt else startAt d m n t fmt

/-- The slot that stands for a pending image header: the oldest one whose window contains its arrival (R152). -/
def hdrSlot (d : Dev) (n : Nat) (h : PendHdr) : Option Slot := windowSlot (skp d n) h.at'

/-- How a bad image header within a line in progress is named among its bad packets; no sensor line has this number. -/
def badHeader : Nat × Nat := (4, 0)

/-- A header arrives with no header pending (R143, R151, R152). -/
def headerFree (d : Dev) (m : Mem) (b : Boot) (n t : Nat) (h : Header) : Dev :=
  let p := skp d n
  if h.reply then
    match p.slots.find? (fun s => s.bad.contains badHeader) with
    | none => d
    | some s =>
      if !h.crcOk then settleSlots (badPacket d n s.stamp.camLine badHeader.1 badHeader.2) m n
      else
        let upd := fun (u : Slot) =>
          if u.stamp.camLine = s.stamp.camLine then { u with bad := u.bad.erase badHeader, resent := true } else u
        let d := settleSlots (setSkp d n { p with slots := p.slots.map upd }) m n
        if h.isHeader then lineStartAt d m b n t h.format.toNat else d
  else if h.crcOk then (if h.isHeader then lineStartAt d m b n t h.format.toNat else skCount d n 8)
  else
    match p.cur with
    | some line => settleSlots (badPacket d n line badHeader.1 badHeader.2) m n
    | none =>
      if !p.discard && resendOn d.force n then
        sendResend (setSkp d n { p with hdr := some { at' := t, reqs := 1 } }) n none
      else
        match windowSlot p t with
        | none => d
        | some s => settleSlots (closeSlot d n s.stamp.camLine 0x05) m n

/-- One event that waited behind a pending header takes place; a header that becomes pending holds what follows it
(R152). -/
def replayHeld (m : Mem) (b : Boot) (n : Nat) : List HeldEv → Dev → Dev
  | [], d => d
  | e :: es, d =>
    if (skp d n).hdr.isSome then setSkp d n { (skp d n) with held := (skp d n).held ++ (e :: es) }
    else
      let d := match e with
        | .start t h => headerFree d m b n t h
        | .packet t p => packetAt d m n t p
        | .fin _ => endLine d m n
      replayHeld m b n es d

/-- The line in progress owes its start to a resent header: it counts in RESEND_OK_CNT when it completes (R152). -/
def markResent (d : Dev) (n : Nat) : Dev :=
  let p := skp d n
  setSkp d n { p with slots := p.slots.map (fun s => if p.cur = some s.stamp.camLine then { s with resent := true } else s) }

/-- The pending header is released: its line starts, or its slot closes as CRC, or nothing; then what was held behind it
takes place (R152). `good` gives the format of a good copy that is a header; `lost` tells that no good copy came. -/
def releaseHdr (d : Dev) (m : Mem) (b : Boot) (n : Nat) (h : PendHdr) (good : Option Nat) (lost : Bool) : Dev :=
  let p := skp d n
  let held := p.held
  let d := setSkp d n { p with hdr := none, held := [] }
  let d := match good with
    | some fmt => markResent (lineStartAt d m b n h.at' fmt) n
    | none =>
      if lost then
        match hdrSlot d n h with
        | none => d
        | some s => settleSlots (closeSlot d n s.stamp.camLine 0x05) m n
      else d
  replayHeld m b n held d

/-- The arrivals of a pending header and of the line starts held behind it (R152). -/
def heldStarts (p : SkeinPort) : List Nat :=
  match p.hdr with
  | none => []
  | some h => h.at' :: p.held.filterMap (fun e => match e with
    | .start t _ => some t
    | _ => none)

/-- A pending header, or a line start held behind it, keeps the slot from R144 (R152). -/
def keptSlot (p : SkeinPort) (s : Slot) : Bool := (heldStarts p).any (fun t => decide (s.winLo ≤ t ∧ t ≤ s.winHi))

/-- Slots with no line start that nothing keeps from R144 (R144, R152). -/
def waitingSlots (p : SkeinPort) : List Slot := p.slots.filter (fun s => !s.started && s.cause.isNone && !keptSlot p s)

/-- The slots whose start window has ended with no line start (R144, R152). -/
def missed (d : Dev) (n : Nat) : List Nat :=
  ((waitingSlots (skp d n)).filter (fun s => decide (s.winHi ≤ d.cycle))).map (fun s => s.stamp.camLine)

/-- Every slot whose window has ended unstarted closes as LINE_MISSING (R144). -/
def closeMissed (d : Dev) (m : Mem) (n : Nat) : Dev := settleSlots (closeSlots d n 0x04 (missed d n)) m n

/-- After a pending header's release the slots it held back resolve at once (R152). -/
def releaseAll (d : Dev) (m : Mem) (b : Boot) (n : Nat) (h : PendHdr) (good : Option Nat) (lost : Bool) : Dev :=
  closeMissed (releaseHdr d m b n h good lost) m n

/-- A header arrives while one is pending: the answer to its request, or a later line start, which is held (R152). -/
def headerPending (d : Dev) (m : Mem) (b : Boot) (n t : Nat) (ph : PendHdr) (h : Header) : Dev :=
  let p := skp d n
  if h.reply then
    if h.crcOk then releaseAll d m b n ph (if h.isHeader then some h.format.toNat else none) false
    else if mayResend d.force n ph.newer ph.reqs then
      sendResend (setSkp d n { p with hdr := some { ph with reqs := ph.reqs + 1 } }) n none
    else releaseAll d m b n ph none true
  else
    let ph := { ph with newer := ph.newer + 1 }
    let d := setSkp d n { p with hdr := some ph, held := p.held ++ [.start t h] }
    if ph.newer ≥ 4 then releaseAll d m b n ph none true else d

/-- LINE_START: what arrives in the place of an image header (R143, R148, R152). -/
def lineStart (d : Dev) (m : Mem) (b : Boot) (n : Nat) (h : Header) : Dev :=
  if !(skp d n).linkUp then d
  else
    match (skp d n).hdr with
    | none => headerFree d m b n d.cycle h
    | some ph => headerPending d m b n d.cycle ph h

/-- VIDEO_PACKET (R147, R151, R152). -/
def videoPacket (d : Dev) (m : Mem) (n : Nat) (pk : Packet) : Dev :=
  let p := skp d n
  if !p.linkUp then d
  else if p.hdr.isSome && pk.reply.isNone then setSkp d n { p with held := p.held ++ [.packet d.cycle pk] }
  else packetAt d m n d.cycle pk

/-- LINE_END (R153). -/
def lineEnd (d : Dev) (m : Mem) (n : Nat) : Dev :=
  let p := skp d n
  if !p.linkUp then d
  else if p.hdr.isSome then setSkp d n { p with held := p.held ++ [.fin d.cycle] }
  else endLine d m n

/-! ### Instants -/

/-- The least of a list of edges. -/
def earliest : List Nat → Option Nat
  | [] => none
  | t :: ts => some (ts.foldl Nat.min t)

/-- LINE_MISSING: the start window that ends first ends (R144). -/
def lineMissing (d : Dev) (m : Mem) (b : Boot) (n : Nat) : Dev :=
  match earliest ((waitingSlots (skp d n)).map (fun s => s.winHi)) with
  | none => d
  | some t => closeMissed (elapse d m b t) m n

/-- A line is pending: it has bad packets, or none can come for it any more (R152). -/
def pendingLine (s : Slot) : Bool := s.cause.isNone && !s.fin && !s.bad.isEmpty

/-- A started line whose deadline counts (R145, R152). -/
def runsOut (s : Slot) : Bool := s.started && !s.ended && !s.fin && s.cause.isNone && s.bad.isEmpty

/-- LINE_TIMEOUT: the deadline of a started line passes; the line completes short (R145). -/
def lineTimeout (d : Dev) (m : Mem) (b : Boot) (n : Nat) : Dev :=
  match earliest (((skp d n).slots.filter runsOut).map (fun s => s.deadline)) with
  | none => d
  | some t =>
    let d := elapse d m b t
    let p := skp d n
    let late := fun (s : Slot) => runsOut s && decide (s.deadline ≤ t)
    let hit := p.slots.any (fun s => late s && decide (p.cur = some s.stamp.camLine))
    let slots := p.slots.map (fun s => if late s then { s with ended := true, timedOut := true } else s)
    settleSlots (setSkp d n { p with slots := slots, cur := if hit then none else p.cur, discard := p.discard || hit }) m n

/-- The edge on which a pending header expires: 2 × WD_TIME after its trigger, or after its arrival where no slot
stands for it (R152). -/
def hdrExpiry (d : Dev) (n : Nat) (h : PendHdr) : Nat :=
  match hdrSlot d n h with
  | none => h.at' + 2 * wdTime d.force n
  | some s => s.trigAt + 2 * wdTime (forceOf d s.stamp.ver) n

/-- The edge on which a pending line expires (R152). -/
def lineExpiry (d : Dev) (n : Nat) (s : Slot) : Nat := s.trigAt + 2 * wdTime (forceOf d s.stamp.ver) n

/-- RESEND_EXPIRY: a pending line or header expires (R152). -/
def resendExpiry (d : Dev) (m : Mem) (b : Boot) (n : Nat) : Dev :=
  let p := skp d n
  let pend := p.slots.filter pendingLine
  match earliest (pend.map (lineExpiry d n) ++ (p.hdr.map (hdrExpiry d n)).toList) with
  | none => d
  | some t =>
    let gone := (pend.filter (fun s => decide (lineExpiry d n s ≤ t))).map (fun s => s.stamp.camLine)
    let hdrGone := p.hdr.filter (fun h => decide (hdrExpiry d n h ≤ t))
    let d := settleSlots (closeSlots (elapse d m b t) n 0x05 gone) m n
    match hdrGone with
    | none => d
    | some h => releaseAll d m b n h none true

/-- CAMERA_STALL: no line of a free-running camera has started for WD_TIME (R148). -/
def cameraStall (d : Dev) (m : Mem) (b : Boot) (n : Nat) : Dev :=
  let p := skp d n
  match p.lastStart with
  | none => d
  | some t =>
    if freeRuns d n && portOn d.force n && !p.stalled then
      let d := elapse d m b (t + wdTime d.force n)
      let p := skp d n
      if freeRuns d n && portOn d.force n && !p.stalled && decide (p.lastStart = some t) then
        skEvt (setSkp d n { p with stalled := true }) n 10
      else d
    else d

/-! ### Lanes -/

/-- Block errors counted on a locked lane (R132). -/
def blkErr (d : Dev) (n k by' : Nat) : Dev := countBy d (ra (pgSkein n) (0x20C + 0x20 * k)) 31 0 by'

/-- LANE_LOCK: a lane sees 64 valid sync headers and locks; its skew is what deskew measures (R132, R134, R136). -/
def laneLock (d : Dev) (n k skew : Nat) : Dev :=
  if (tat (skp d n).lanes k).locked then d
  else
    let p := skp d n
    let d := setSkp d n { p with lanes := tmod p.lanes k (fun l => { l with locked := true, skew := skew }) }
    let d := pokeBit d (ra (pgSkein n) 0x118) (16 + k) true
    checkLink (poke d (ra (pgSkein n) (0x200 + 0x20 * k)) 31 26 skew) n

/-- A lane is no longer locked. -/
def laneOff (d : Dev) (n k : Nat) : Dev :=
  let p := skp d n
  pokeBit (setSkp d n { p with lanes := tmod p.lanes k (fun l => { l with locked := false }) }) (ra (pgSkein n) 0x118) (16 + k) false

/-- LANE_LOCK_LOSS: 16 invalid sync headers within 64 blocks; a configured lane takes the link down (R132, R136). -/
def laneLoss (d : Dev) (m : Mem) (n k : Nat) : Dev :=
  if (tat (skp d n).lanes k).locked then
    let d := laneOff (blkErr d n k 16) n k
    if portOn d.force n && (usedLanes d.force n).contains k then linkDown d m n else d
  else d

/-- SLIP: a lane's filler store overflows or starves (R135). -/
def laneSlip (d : Dev) (m : Mem) (n k : Nat) : Dev :=
  linkDown (pokeBit d (ra (pgSkein n) 0x118) (24 + k) true) m n

/-- GPIO_MESSAGE (R140). -/
def gpioIn (d : Dev) (n levels : Nat) : Dev := poke d (ra (pgSkein n) 0x120) 3 0 levels

/-- STATUS_MSG (R141). -/
def camStatus (d : Dev) (n : Nat) (w : Word) : Dev := skEvt (setReg d (ra (pgSkein n) 0x11C) w) n 11

/-- CAM_GPOUT: a change at consumer CAMnn_GPOUTk; one that the uplink cannot carry merges (R140). -/
def camGpout (d : Dev) (n k : Nat) (level carried : Bool) : Dev :=
  let p := skp d n
  if p.gpOut.testBit k = level then d
  else
    let v := if level then p.gpOut + 2 ^ k else p.gpOut - 2 ^ k
    let d := setSkp d n { p with gpOut := v }
    if !txOn d n then d
    else if carried then poke (emit d (.gpioMsg n v)) (ra (pgSkein n) 0x120) 7 4 v
    else skCount d n 12

/-! ### Equaliser loops and eye scans -/

/-- Where a lane's registers lie, its number on the page, and the page. -/
def laneAt : LaneId → Nat × Nat
  | .skein n k => (pgSkein n, k)
  | .fabric p k => (pgFabPort p, k)

/-- The lanes of the page a lane belongs to, and the scans waiting there. -/
def laneTbl (d : Dev) : LaneId → Tbl LaneSt × List Nat
  | .skein n _ => ((skp d n).lanes, (skp d n).scans)
  | .fabric p _ => ((fbp d p).lanes, (fbp d p).scans)

/-- Replace them. -/
def setLaneTbl (d : Dev) (l : LaneId) (ls : Tbl LaneSt) (scans : List Nat) : Dev :=
  match l with
  | .skein n _ => setSkp d n { (skp d n) with lanes := ls, scans := scans }
  | .fabric p _ => setFbp d p { (fbp d p) with lanes := ls, scans := scans }

/-- The bounds of a loop in force: those of a skein are shadowed, those of a port act on write (R164, R168, R447). -/
def eqBounds (d : Dev) (l : LaneId) (g : Nat) : Int × Int :=
  match l with
  | .skein _ _ => groupBounds d.force g
  | .fabric _ _ => groupBoundsNow d g

/-- The event raised when a loop of a page is pinned (R169, R492). -/
def pinEvent (l : LaneId) (loop : EqLoop) : Nat :=
  match l, loop with
  | .skein _ _, .ctle => 13
  | .skein _ _, .dfe => 14
  | .fabric _ _, .ctle => 5
  | .fabric _ _, .dfe => 6

/-- The pinned state of a loop of a lane. -/
def lanePins (x : LaneSt) : EqLoop → Bool × Bool
  | .ctle => (x.ctleLo, x.ctleHi)
  | .dfe => (x.dfeLo, x.dfeHi)

/-- Replace it. -/
def setPins (x : LaneSt) (loop : EqLoop) (lo hi : Bool) : LaneSt :=
  match loop with
  | .ctle => { x with ctleLo := lo, ctleHi := hi }
  | .dfe => { x with dfeLo := lo, dfeHi := hi }

/-- CTLE_DFE_UPDATE: one step of a lane's loop; the page's bound group tells whether any lane is pinned (R81, R82, R164,
R447). -/
def eqUpdate (d : Dev) (l : LaneId) (loop : EqLoop) (computed : Int) : Dev :=
  let pg := (laneAt l).1
  let k := (laneAt l).2
  let a := ra pg (0x200 + 0x20 * k)
  let g := ra pg (match loop with | .ctle => 0x180 | .dfe => 0x190)
  let cur : Int := match loop with
    | .ctle => rf d a 19 16
    | .dfe => toSigned 8 (rf d a 15 8)
  let bd := eqBounds d l g
  let o := loopStep cur (cur + satI (computed - cur) (-1) 1) bd.1 bd.2 1
  let d := match loop with
    | .ctle => poke d a 19 16 o.value.toNat
    | .dfe => poke d a 15 8 (sf 8 o.value)
  let ls := (laneTbl d l).1
  let was := lanePins (tat ls k) loop
  let ls := tmod ls k (fun x => setPins x loop o.lo o.hi)
  let d := setLaneTbl d l ls (laneTbl d l).2
  let lo := ls.any (fun e => (lanePins e.2 loop).1)
  let hi := ls.any (fun e => (lanePins e.2 loop).2)
  let d := poke d (g + 8) 1 0 (2 * hi.toNat + lo.toNat)
  if (o.lo || o.hi) && !(was.1 || was.2) then evt (count d (g + 12)) pg (pinEvent l loop) else d

/-- SCAN_START: a lane waits for its eye scan, or is scanned at once; none starts under throttle step 1 (R165, R589). -/
def scanStart (d : Dev) (l : LaneId) : Dev :=
  let t := laneTbl d l
  let k := (laneAt l).2
  if t.2.contains k ∨ throttleStep d ≠ 0 then d
  else scanBusy (setLaneTbl d l t.1 (t.2 ++ [k])) (laneAt l).1 k true

/-- SCAN_DONE: the scan in progress on a page ends (R165, R166, R448). -/
def scanDone (d : Dev) (l : LaneId) (r : EyeResult) : Dev :=
  let t := laneTbl d l
  let pg := (laneAt l).1
  let k := (laneAt l).2
  if t.2.head? = some k then
    let d := scanBusy (setLaneTbl d l t.1 (t.2.drop 1)) pg k false
    match l with
    | .skein _ _ => scanResult d pg k 12 6400 20 400 r
    | .fabric _ _ => scanResult d pg k 4 3556 15 300 r
  else d

end Sys2Proof.Machine
end

