-- ==== Sys2Proof/Machine/Errc.lean ====
section
/-!
DEFINITION. The error controller, and the orderly stop of the part (R65, R594, R595, R609 to R615).
-/

namespace Sys2Proof.Machine

/-- Address of a register of the ERRC page. -/
def errcA (o : Nat) : Nat := ra pgErrc o

/-- The four slots, by the offset of their INFO (R622). -/
def slotCur : Nat := 0x110
def slotPre : Nat := 0x130
def slotFirst : Nat := 0x150
def slotFatal : Nat := 0x170

/-- Fill a slot with an error and its SEQ (R622). -/
def fillSlot (d : Dev) (o : Nat) (e : ErrEvent) (seq : Nat) : Dev :=
  let d := setReg d (errcA o) (wpack [(24, 8, e.code), (22, 2, e.sev), (19, 3, e.level), (12, 7, e.src)])
  let d := setReg d (errcA (o + 4)) (wpack [(0, 16, seq)])
  let d := setReg d (errcA (o + 8)) (wpack [(0, 32, e.detail)])
  let d := setReg d (errcA (o + 0xC)) (wpack [(0, 32, e.sec)])
  let d := setReg d (errcA (o + 0x10)) (wpack [(0, 30, e.ns)])
  let d := setReg d (errcA (o + 0x14)) (wpack [(0, 32, e.sysLine)])
  setReg d (errcA (o + 0x18)) (wpack [(0, 32, e.sysLine / 2 ^ 32)])

/-- The seven words of a slot, as offsets from its INFO. -/
def slotWords : List Nat := [0, 4, 8, 0xC, 0x10, 0x14, 0x18]

/-- Empty a slot. -/
def clearSlot (d : Dev) (o : Nat) : Dev := slotWords.foldl (fun d i => setReg d (errcA (o + i)) 0) d

/-- Copy one slot to another. -/
def copySlot (d : Dev) (src dst : Nat) : Dev :=
  slotWords.foldl (fun d i => setReg d (errcA (dst + i)) (reg d (errcA (src + i)))) d

/-- CUR and PRE hold an error. -/
def curValid (d : Dev) : Bool := rb d (errcA 0x108) 31
def preValid (d : Dev) : Bool := rb d (errcA 0x108) 30

/-- Severity of the error in a slot. -/
def slotSev (d : Dev) (o : Nat) : Nat := rf d (errcA o) 23 22

/-- A presentation is told to the host (R613). -/
def announceErr (d : Dev) (again : Bool) : Dev :=
  emit (evt (pokeBit (pokeBit d (errcA 0x108) 31 true) (errcA 0x108) 29 again) pgErrc 0) (.msix 4)

/-- An error is presented in CUR (R609, R613, R615). -/
def present (d : Dev) (b : Boot) (e : ErrEvent) : Dev :=
  let seq := d.health.errSeq
  let d := { d with health := { d.health with errSeq := (seq + 1) % 65536 } }
  let d := announceErr (fillSlot d slotCur e seq) false
  let d := if e.sev = 3 then fillSlot d slotFatal e seq else d
  if rb d (errcA 0x100) 2 && decide (rf d (errcA 0x100) 1 0 ≤ e.sev) then snapTrigger d b 4 else d

/-- CUR makes way: PRE keeps the error of higher severity, the older one on a tie, and the other is displaced
(R610). -/
def preempt (d : Dev) : Dev :=
  let d := if preValid d then evt (count d (errcA 0x190)) pgErrc 2 else d
  let d := if preValid d && decide (slotSev d slotCur ≤ slotSev d slotPre) then d else copySlot d slotCur slotPre
  evt (pokeBit d (errcA 0x108) 30 true) pgErrc 1

/-- One error reaches the controller (R609, R610). -/
def handleErr (d : Dev) (b : Boot) (e : ErrEvent) : Dev :=
  let lo := 16 * (e.code % 2)
  let d := countBy d (errcA (0x200 + 4 * (e.code / 2 % 64))) (lo + 15) lo 1
  let seq := d.health.errSeq
  let shown := !curValid d || decide (slotSev d slotCur < e.sev)
  let d :=
    if !curValid d then present d b e
    else if slotSev d slotCur < e.sev then present (preempt d) b e
    else d
  if reg d (errcA slotFirst) = 0 then fillSlot d slotFirst e (if shown then seq else (Config.firstSeq d.cycle).toNat) else d

/-- The order in which errors of one edge are taken (R612). -/
def errBefore (a b : ErrEvent) : Bool := decide (b.sev < a.sev) || (decide (a.sev = b.sev) && decide (a.code ≤ b.code))

/-- Every error waiting is handled (R610, R612). -/
def takeErrors (d : Dev) (b : Boot) : Dev :=
  let es := isort errBefore d.errIn
  es.foldl (fun d e => handleErr d b e) { d with errIn := [] }

/-- What an uncorrectable QDR-IV word at data address `a` means beside the report (R434, R436). -/
def qdrLoss (d : Dev) (m : Mem) (a : Nat) : Dev :=
  let pg := pgQdrCh (a / 64 % 4)
  let d := evt (poke (count d (ra pg 0x108)) (ra pg 0x118) 26 0 (a / 64 * 64)) pgQdr 1
  if 0x6010000 ≤ a ∧ a < 0x6100000 then
    let right := Config.journalSide a
    let s := sideOf d right
    breakSide m (setSide d right { s with journal := s.journal.drop 1 }) right
  else if d.qdrBad.contains (a / 64) then d
  else { d with qdrBad := a / 64 :: d.qdrBad }

/-- An error found where no other command finds it (R608, R614). -/
def outsideErr (d : Dev) (m : Mem) (e : OutsideError) : Dev :=
  let d :=
    if e.code.toNat = 0x43 then qdrLoss d m e.detail.toNat
    else if e.code.toNat = 0x41 then
      evt (countBy d (ra (pgLpxCh (lpxMap d e.detail.toNat).ch) 0x11C) 31 16 1) pgLpx 7
    else d
  raise d e.page e.code.toNat e.sev.toNat e.level.toNat e.detail.toNat

/-- A write of ERRC_DONE (R611). -/
def errcDone (d : Dev) (seq : Nat) : Dev :=
  if curValid d && decide (rf d (errcA (slotCur + 4)) 15 0 = seq) then
    if preValid d then
      announceErr (pokeBit (clearSlot (copySlot d slotPre slotCur) slotPre) (errcA 0x108) 30 false) true
    else setReg (clearSlot d slotCur) (errcA 0x108) 0
  else count d (errcA 0x194)

/-! ### Stopping -/

/-- Close every merged gap of the part: no record follows the STOP (R158, R331). -/
def closeAllGaps (d : Dev) : Dev :=
  let d := (List.range 16).foldl (fun d n =>
    let p := skp d n
    setSkp (flushGaps d p.gaps) n { p with gaps := [] }) d
  let d := (List.range 32).foldl (fun d k =>
    let w := k / 2
    let x := k % 2
    let s := wst d w x
    let g := sgs d w x
    let d := flushGaps d (s.camGaps ++ s.alignGaps ++ s.sysGaps ++ g.gaps)
    setSgs (setWst d w x { s with camGaps := [], alignGaps := [], sysGaps := [] }) w x { g with gaps := [] }) d
  (List.range 8).foldl (fun d ss =>
    let d := flushGaps d (tat d.trk.gaps ss)
    setTrk d { d.trk with gaps := tset d.trk.gaps ss [] }) d

/-- The next line of a station that the tracker has not labelled; none before its first. -/
def nextUnseen (d : Dev) (ss : Nat) : Option Nat := (trkStn d ss).last.map (· + 1)

/-- The first system line not inspected: the first that some tracked station has not labelled, or, before any, the
next line there will be (R65, R331; DEDUCED, log 30). -/
def stopLine (d : Dev) : Nat :=
  let ahead := if d.pos.refSeen then d.pos.sysLine + 1 else 0
  ((List.range 8).filterMap (fun ss => if (trkStn d ss).on then nextUnseen d ss else none)).foldl Nat.min ahead

/-- The STOP record (R331). -/
def stopRec (d : Dev) : Rec :=
  let n := stopLine d
  let st := (tget (fun _ => none) d.refLines n).getD (unstamped d n)
  { w0 := recW0 d 2 (0x19 * 64) 0 0xFF n
    w1 := dpack [(0, 8, st.epoch)]
    w2 := dpack [(0, 64, sf 64 st.web)]
    w3 := 0x7FFFFFFFFFFFFFFF
    w4 := dpack [(40, 24, 0xFFFFFF), (20, 20, fld (inForce d (ra pgStitch 0x100)) 19 0), (0, 20, 0x80000)]
    w5 := 0
    w6 := recW6 st.time }

/-- The part stops: PAIR_OK_OUT falls, no further line is taken, open coils are flushed with notices to the
neighbours, and the STOP record follows (R65, R76, R515, R595). -/
def stopPart (d : Dev) (m : Mem) : Dev :=
  let d := { d with pair := { d.pair with okOut := false, actOut := false } }
  if d.stopped then d
  else
    let d := closeAllGaps (flushAll m { d with stopped := true })
    { d with bin := { d.bin with stop := some (stopRec d) } }

/-- Orderly shutdown has begun. -/
def shuttingDown (d : Dev) : Bool := rb d (ra pgTherm 0x108) 27

/-- Orderly shutdown starts, for cause 0x03 or 0x04; a staging session ends (R594, R595, R654). -/
def shutdown (d : Dev) (m : Mem) (code : Nat) : Dev :=
  if shuttingDown d then d
  else
    let d := { d with upd := { d.upd with sess := none } }
    stopPart (raiseOpen (evt (pokeBit d (ra pgTherm 0x108) 27 true) pgTherm 6) pgTherm code 3 5) m

end Sys2Proof.Machine
end

