-- ==== Sys2Proof/Machine/HostRegs.lean ====
section
/-!
DEFINITION. What a host write does to a register of any page: shadow fields and their lock, the access codes of R14, the
bound groups, and the page header with its soft reset (R14, R79, R80, R657 to R664, R667).
-/

namespace Sys2Proof.Machine

/-! ### Storing a word -/

/-- The page's shadow fields are locked: it is armed, or frozen (R661). -/
def pageLocked (d : Dev) (pg : Nat) : Bool := (armOf d pg).armed || rb d (ra pg 0x008) 31

/-- A shadow write was discarded (R661). -/
def markLocked (d : Dev) (pg : Nat) : Dev := pokeBit d (ra pg 0x008) 6 true

/-- The word a register holds after a write of `v`, its shadow fields kept where `locked` (R14, R661). -/
def writtenWord (r : RegRow) (locked : Bool) (old v : Word) : Word :=
  let open' := r.rw ||| (if locked then 0 else r.sh)
  let k := open' &&& ~~~ r.w1s
  let s := if locked then r.w1s &&& ~~~ r.sh else r.w1s
  ((old &&& ~~~ k) ||| (v &&& k) ||| (v &&& s)) &&& ~~~ (v &&& r.w1c) &&& ~~~ r.clr

/-- A write of `v` to the register at `a` by the access codes of its fields; a reserved offset ignores it (R12, R14,
R660, R661). -/
def storeReg (d : Dev) (a : Nat) (v : Word) : Dev :=
  match regRow a with
  | none => d
  | some (r, _) =>
    let lock := decide (r.sh ≠ 0) && pageLocked d (a / 4096)
    let d' := setReg d a (writtenWord r lock (reg d a) v)
    if lock then markLocked d' (a / 4096) else d'

/-- A bound as it is stored: clipped to the hardware limits (R79). -/
def clipBound (sgn : Bool) (hlo hhi : Int) (v : Word) : Word := BitVec.ofInt 32 (satI (boundInt sgn v) hlo hhi)

/-- A write of a floor or ceiling of a bound group; one of a group that acts on write also keeps the order (R79, R80). -/
def boundWrite (d : Dev) (a : Nat) (v : Word) : Dev :=
  match loopGroup a with
  | none => storeReg d a v
  | some (g, hlo, hhi, sgn) =>
    let w := clipBound sgn hlo hhi v
    let lo := boundInt sgn (if a = g then w else reg d g)
    let hi := boundInt sgn (if a = g then reg d (g + 4) else w)
    let shadow := decide (shadowMask a ≠ 0)
    if shadow && pageLocked d (a / 4096) then markLocked d (a / 4096)
    else if !shadow && decide (lo > hi) then pokeBit d (g + 8) 3 true
    else
      let d := storeReg d a w
      if w = v then d else pokeBit d (g + 8) 2 true

/-- Whether `a` is a floor or ceiling of a bound group. -/
def isBound (a : Nat) : Bool :=
  match loopGroup a with
  | none => false
  | some (g, _) => decide (a = g) || decide (a = g + 4)

/-! ### The header -/

/-- The enable fields of the block on a page, as offset and bit; none where the page has none of its own (R659). -/
def ownEnables (pg : Nat) : List (Nat × Nat) :=
  if 0x10 ≤ pg ∧ pg < 0x16 then [(0x100, 31)]
  else if pg = pgCmp then (List.range 24).map (fun u => (0x100 + 0x40 * u, 31))
  else if pg = pgPos then (List.range 8).map (fun s => (0x200 + 0x20 * s, 19))
  else if 0x20 ≤ pg ∧ pg < 0x30 then [(0x100, 31)]
  else if 0x100 ≤ pg ∧ pg < 0x200 ∧ pg % 16 = 2 then [(0x170, 31), (0x570, 31)]
  else if 0x100 ≤ pg ∧ pg < 0x200 ∧ pg % 16 = 4 then [(0x100, 31), (0x500, 31)]
  else if pg = pgHif then (List.range 5).map (fun r => (0x108 + 0x40 * r, 31))
  else if pg = pgHist then (List.range 32).map (fun n => (0x400 + 0x40 * n, 31))
  else if 0x231 ≤ pg ∧ pg < 0x236 then [(0x100, 31)]
  else if pg = pgIntc then (List.range 512).map (fun s => (0x300 + 4 * s, 31))
  else if pg = pgMon then (List.range 16).map (fun k => (0x100 + 0x20 * k, 31))
  else if pg = pgFlt then (List.range 4).map (fun k => (0x100 + 0x10 * k, 31))
  else if [pgTrk, pgBorder, pgLpx, pgQdr, pgFab, pgPtp, pgPair].contains pg then [(0x100, 31)]
  else []

/-- Counters that a write does not clear, and a soft reset does (R659). -/
def plainCounters (pg : Nat) : List Nat :=
  if pg = pgCmp then (List.range 24).map (fun u => 0x130 + 0x40 * u)
  else if 0x100 ≤ pg ∧ pg < 0x200 ∧ pg % 16 = 4 then [0x118, 0x518]
  else []

/-- The fields of a register that a soft reset leaves: CTRL.EN, and REP_EN of an encoder channel (R126, R659). -/
def softKept (pg o : Nat) : Word :=
  if o = 0x008 then 0x1 else if 0x10 ≤ pg ∧ pg < 0x18 ∧ o = 0x100 then 0x2000 else 0

/-- One register under a soft reset (R659). -/
def softWord (pg o : Nat) (r : RegRow) (old : Word) : Word :=
  let k := (r.rw ||| r.sh) &&& ~~~ softKept pg o
  let w := ((old &&& ~~~ k) ||| (regReset (ra pg o) &&& k)) &&& ~~~ r.clr
  if o = 0x010 ∨ (plainCounters pg).contains o then 0 else w

/-- Every register of a page with its row. -/
def pageRegs (p : PageInfo) : List (Nat × RegRow) :=
  (headerRows p ++ p.rows).flatMap (fun r => (List.range r.count).map (fun i => (r.off + r.stride * i, r)))

/-- The page returns to its reset values, its values in force with its shadow values (R659). -/
def softReset (d : Dev) (m : Mem) (b : Boot) (pg : Nat) (p : PageInfo) : Dev :=
  let fo := d.force
  let rs := pageRegs p
  let d := rs.foldl (fun d x => setReg d (ra pg x.1) (softWord pg x.1 x.2 (reg d (ra pg x.1)))) d
  let f := (shadowOffsets pg).foldl (fun f a =>
    tput regReset f a ((vw f a &&& ~~~ shadowMask a) ||| (regReset a &&& shadowMask a))) d.force
  if f = fo then d
  else
    let d := { d with force := f, past := tset d.past d.ver fo, ver := d.ver + 1 }
    settle m b (applyHooks d m fo [pg])

/-- A write of CTRL.SRST (R659). -/
def srstPage (d : Dev) (m : Mem) (b : Boot) (pg : Nat) : Dev :=
  match pageInfo pg with
  | none => d
  | some p =>
    let es := ownEnables pg
    if es.isEmpty then d
    else if es.any (fun e => rb d (ra pg e.1) e.2 ||
        (decide (shadowMask (ra pg e.1) ≠ 0) && bitOf (inForce d (ra pg e.1)) e.2)) then pokeBit d (ra pg 0x008) 5 true
    else softReset d m b pg p

/-- A write of CTRL.EN on a page that gates a rand (R658). -/
def randPower (d : Dev) (pg : Nat) (en : Bool) : Dev := if isRandPage pg then pokeBit d (ra pg 0x008) 0 en else d

/-- A write of CTRL (R657 to R659). -/
def ctrlWrite (d : Dev) (m : Mem) (b : Boot) (pg : Nat) (v : Word) : Dev :=
  let d := randPower (storeReg d (ra pg 0x008) v) pg (bitOf v 0)
  if bitOf v 30 then srstPage d m b pg else d

/-- SNAP_CTRL.BASE as it is stored (R664). -/
def snapCtrlWord (v : Word) : Word :=
  let base := Nat.max 0x100 (Nat.min 0xF40 (fld v 11 2 * 4))
  wpack [(31, 1, (bitOf v 31).toNat), (0, 12, base)]

/-- COMMIT_POS of a page. -/
def commitPos (d : Dev) (pg : Nat) : Nat := reg64 d (ra pg 0x02C)

/-- The arming that COMMIT_MODE and COMMIT_POS ask for: what its mode ignores is left out, so that pages of one group
have equal armings (R68, R483, R662). -/
def armingOf (d : Dev) (pg : Nat) : Arming :=
  let md := rf d (ra pg 0x028) 1 0
  { armed := true, mode := md, ch := if md = 2 then rf d (ra pg 0x028) 6 4 else 0,
    pos := if md = 0 then 0 else if md = 3 then commitPos d pg % 2 ^ 32 else commitPos d pg }

/-- The armed group of page `pg` in line mode takes effect if its line has been reached (R662, R697). -/
def commitPage (d : Dev) (m : Mem) (b : Boot) (pg : Nat) : Dev :=
  let a := armOf d pg
  if a.armed && decide (a.mode = 1) && decide (a.pos ≤ d.pos.sysLine) then settle m b (commitReached m [a] d) else d

/-- A page is armed, or refused at once in epoch mode off the fabric (R662, R663, R697). -/
def armPage (d : Dev) (m : Mem) (b : Boot) (pg : Nat) : Dev :=
  let a := armingOf d pg
  if a.mode = 3 ∧ !rb d (ra pgFab 0x100) 31 then pokeBit d (commitStatA pg) 27 true
  else commitPage { d with arming := tset d.arming pg a } m b pg

/-- A write of COMMIT_MODE (R661 to R663). DISARM goes before ARM. -/
def commitModeWrite (d : Dev) (m : Mem) (b : Boot) (pg : Nat) (v : Word) : Dev :=
  if (armOf d pg).armed then (if bitOf v 29 then disarm d pg else markLocked d pg)
  else
    let d := storeReg d (ra pg 0x028) v
    if bitOf v 30 && !bitOf v 29 then armPage d m b pg else d

/-- A write of the header of a page (R657, R661, R663, R664). -/
def headerWrite (d : Dev) (m : Mem) (b : Boot) (pg o : Nat) (v : Word) : Dev :=
  if o = 0x008 then ctrlWrite d m b pg v
  else if o = 0x020 then setReg d (ra pg o) (snapCtrlWord v)
  else if (o = 0x028 ∨ o = 0x02C ∨ o = 0x030) ∧ isShadowPage pg then
    if o = 0x028 then commitModeWrite d m b pg v
    else if (armOf d pg).armed then markLocked d pg
    else storeReg d (ra pg o) v
  else storeReg d (ra pg o) v

/-- Pages armed in epoch mode when FAB_CFG.EN is cleared (R663). -/
def disarmEpoch (d : Dev) : Dev :=
  ((armedPages d).filter (fun pg => decide ((armOf d pg).mode = 3))).foldl
    (fun d pg => disarm (pokeBit d (commitStatA pg) 28 true) pg) d

end Sys2Proof.Machine
end

