-- ==== Sys2Proof/Machine/Relay.lean ====
section
/-!
DEFINITION. The fabric beyond its frames: links coming up and going down, the timers of a port, discovery timers,
reference lines and relayed counts, the time relay, and records on the fabric (R444 to R481, R507).
-/

namespace Sys2Proof.Machine

/-! ### Links -/

/-- FABpp_CFG of port `p`. -/
def fabCfgA (p : Nat) : Nat := ra (pgFabPort p) 0x100

/-- Bring-up of an enabled port starts (R444 step 1). -/
def startTraining (d : Dev) (p : Nat) : Dev :=
  let d := poke (poke d (fabStatA p) 31 27 8) (fabStatA p) 26 24 0
  let d := pokeBit (pokeBit d (fabStatA p) 19 false) (fabStatA p) 16 false
  setFbp d p { (fbp d p) with trainAt := d.cycle }

/-- The Limileri ports 0 to 3 of a standby part are held disabled (R519). -/
def portHeld (d : Dev) (p : Nat) : Bool := standby d && decide (p < 4)

/-- A write of FABpp_CFG: setting EN starts bring-up, clearing it takes the link down for good (R444, R445). -/
def linkEnable (d : Dev) (p : Nat) (cfg : Word) : Dev :=
  let was := rb d (fabCfgA p) 31
  let d := setReg d (fabCfgA p) (cfg &&& 0xFE000000)
  if bitOf cfg 31 then (if was || portHeld d p then d else startTraining d p)
  else
    let d := poke (fabDown d p) (fabStatA p) 31 24 0
    if was then setFbp d p { (fbp d p) with scans := [] } else d

/-- The lanes a link comes up on, from those good at both ends (R444 step 4). -/
def linkLanes (good : Nat) (degrade : Bool) : List Nat :=
  if good % 16 = 15 then [0, 1, 2, 3]
  else if !degrade then []
  else if good % 4 = 3 then [0, 1]
  else if good / 4 % 4 = 3 then [2, 3]
  else (bitIdx 4 good).take 1

/-- WIDTH of a link of `n` lanes (R491). -/
def widthCode (n : Nat) : Nat := if n = 4 then 3 else n

/-- The pools of a receiver as a CREDIT frame returns them in full (R455, R460). -/
def fullPools : List Dword := [dpack ((60, 4, 2) :: (List.range 7).map (fun k => (8 * k, 8, poolSize (k + 1))))]

/-- Protocol version of the running image, major part. -/
def protoMajor (d : Dev) : Nat := d.img.fab / 16

/-- Port `p` learns its partner (R444 step 5, R467). -/
def learnPartner (d : Dev) (p : Nat) (x : Partner) : Dev :=
  let a := fabStatA p
  let d := setReg (setReg d (ra (pgFabPort p) 0x108) (x.serial.setWidth 32)) (ra (pgFabPort p) 0x10C) ((x.serial >>> 32).setWidth 32)
  let d := poke (pokeBit d a 16 true) a 13 8 (if x.nodeValid then x.node.toNat else 0)
  let d := poke d a 7 5 x.port.toNat
  let bad := decide (x.major.toNat ≠ protoMajor d)
  let d := pokeBit d a 18 bad
  let f := ra pgFab 0x104
  if bad && !rb d f 25 then evt (pokeBit d f 25 true) pgFab 8
  else pokeBit d f 25 ((List.range 5).any (fun q => rb d (fabStatA q) 18))

/-- Training and the partner exchange of port `p` end (R444 steps 2 to 6): `good` are the lanes good at this end.
Without a width the link stays down. Its lanes are then scanned (R448). -/
def linkUp (d : Dev) (p : Nat) (good : Nat) (deskewFail : Bool) (x : Partner) : Dev :=
  let a := fabStatA p
  if !rb d a 30 || rb d a 31 then d
  else
    let d := pokeBit (poke d a 27 24 good) a 19 deskewFail
    let ls := linkLanes (good &&& x.good.toNat) (rb d (fabCfgA p) 30)
    if ls.isEmpty then d
    else
      let d := learnPartner d p x
      let d := poke (poke d a 31 30 2) a 29 28 (widthCode ls.length)
      let o := fbp d p
      let d := setFbp d p { ({} : FabPort) with
        lanes := o.lanes, held := if isPairPort d p then [] else o.held, heldAt := o.heldAt, delay := o.delay, scans := ls }
      let d := ls.foldl (fun d k => scanBusy d (pgFabPort p) k true) d
      let d := evt d (pgFabPort p) 0
      let d := if ls.length < 4 then evt d (pgFabPort p) 2 else d
      let d := sendLink d p fullPools
      if isPairPort d p then o.held.foldl (fun d q => sendOn d p q) d else d

/-- Five milliseconds after step 1 a link not up begins again (R444). -/
def linkRestart (d : Dev) (p : Nat) : Dev :=
  if rb d (fabStatA p) 30 && !rb d (fabStatA p) 31 then startTraining d p else d

/-- A lane loses lock or slips, or the partner restarts: the link goes down (R445, R450). -/
def linkLoss (d : Dev) (p : Nat) (slip : Nat) : Dev :=
  let a := fabStatA p
  let d := poke d a 23 20 (rf d a 23 20 ||| slip)
  fabDown d p

/-! ### Link-control frames and port timers -/

/-- A NAK names the LSEQ to replay from (R458). -/
def nakArrive (d : Dev) (p : Nat) (ws : List Dword) : Dev :=
  replayFrom d p (fun f => decide (f.lseq.toNat = dfld (dwAt ws 0) 11 0))

/-- A CREDIT frame returns credits (R454, R455). -/
def creditArrive (d : Dev) (p : Nat) (ws : List Dword) : Dev :=
  let x := fbp d p
  let cred := (List.range 7).foldl (fun t k => tmod t (k + 1) (fun n => n + dfld (dwAt ws 0) (8 * k + 7) (8 * k))) x.cred
  pumpPort p (x.outq.length + 1) (setFbp d p { x with cred := cred })

/-- An ACK frame leaves when an acceptance has gone unacknowledged (R456). -/
def ackSend (d : Dev) (p : Nat) : Dev := if (fbp d p).ackAt.isSome then sendLink d p [0] else d

/-- Every unacknowledged frame is replayed (R458). -/
def replayAll (d : Dev) (p : Nat) : Dev := replayFrom d p (fun _ => true)

/-- A NAK is sent again while the expected LSEQ is unchanged (R457). -/
def nakAgain (d : Dev) (p : Nat) : Dev :=
  let x := fbp d p
  if x.nakFor = some x.rxSeq then sendNak (setFbp d p { x with nakFor := none }) p else d

/-- Frames held since the link went down are dropped (R470). -/
def dropHeld (d : Dev) (p : Nat) : Dev :=
  let x := fbp d p
  x.held.foldl (fun d q => returnCredit (countDrop d q.arr) q) (setFbp d p { x with held := [] })

/-! ### Discovery timers -/

/-- A HELLO or ASSIGN is flooded by the node that hears it; a node whose HELLOs stop is forgotten (R464, R465). -/
def nodeGone (d : Dev) (serial : Nat) : Dev :=
  if d.node.seen.any (fun n => decide (n.serial = serial)) then
    let d := { d with node := { d.node with seen := d.node.seen.filter (fun n => decide (n.serial ≠ serial)) } }
    let lead := rb d (ra pgFab 0x100) 30 && fabOn d && lowestSerial d
    let d := { d with node := { d.node with leader := lead } }
    refreshSpan (refreshSeen (evt d pgFab 3))
  else d

/-- The election: the node of lowest serial number becomes leader and assigns IDs (R465). -/
def elect (d : Dev) : Dev :=
  if fabOn d && rb d (ra pgFab 0x100) 30 && lowestSerial d then
    let d := { d with node := { d.node with leader := true, assignAt := d.cycle } }
    assignAll (unassigned d) d
  else { d with node := { d.node with leader := false } }

/-- The leader repeats ASSIGN for the nodes still without an ID (R465). -/
def repeatAssign (d : Dev) : Dev :=
  if d.node.leader then assignAll (unassigned d) { d with node := { d.node with assignAt := d.cycle } } else d

/-! ### Reference lines -/

/-- The wait of something due `due` in 2^-16 ns of the counter, in control-clock cycles; none when it is not
positive (R473). The effect falls on the first edge not before it. -/
def waitCycles (d : Dev) (due : Int) : Option Nat :=
  let w := due - (timeStamp d : Int)
  if w ≤ 0 then none else some ((2 * w.toNat + 327679) / 327680)

/-- FAB_TIMING.REF_DELAY in 2^-16 ns. -/
def refDelay (d : Dev) : Nat := rf d (ra pgFab 0x128) 31 16 * 65536

/-- FAB_TIMING.REF_LOSS in control-clock cycles. -/
def refLoss (d : Dev) : Nat := usCycles (rf d (ra pgFab 0x128) 15 0)

/-- The time a REF_LINE carries (R472). -/
def refTime (ws : List Dword) : Nat :=
  ((dwAt ws 4).toNat * 1000000000 + dfld (dwAt ws 5) 63 32) * 65536 + dfld (dwAt ws 5) 31 16

/-- The steps of the reference encoder as a REF_LINE tells them (R476). -/
def refSteps (d : Dev) (seq : Nat) (move : Int) : Dev :=
  let n := d.node
  let k := match n.stepSeq with
    | none => 0
    | some o => (seq + 256 - o) % 256
  let count := n.refCount + k
  let steps := if k = 0 then n.refSteps else if k = 1 then (n.refSteps ++ [(count, move)]).drop (n.refSteps.length - 15)
    else [(count, move)]
  { d with node := { n with stepSeq := some seq, refCount := count, refSteps := steps } }

/-- The decision on a system-wide commit that a REF_LINE of line `l` brings (R487, R488). -/
def refDecision (d : Dev) (m : Mem) (b : Boot) (l : Nat) (w : Dword) : Dev × List Fire :=
  let id := dfld w 31 0
  let here := decide (dfld w 59 59 = 1)
  let mine := d.node.prep.filter (fun p => decide (p.id = id) && decide (p.line ≤ l))
  let d := setReg d (ra pgFab 0x144) (BitVec.ofNat 32 id)
  if here || mine.isSome then
    let d := { d with node := { d.node with prep := none } }
    if dfld w 58 58 = 1 then epochCommit d m b id (dfld w 57 55) (dfld w 47 40) else (epochAbort d id, [])
  else (d, [])

/-- A REF_LINE takes effect: the system line, the lines skipped, the epoch, the reference stamp and the decision it
carries (R473 to R476, R481, R487). -/
def refEffect (d : Dev) (m : Mem) (b : Boot) (ws : List Dword) : Dev :=
  let w := dwAt ws 0
  let l := (dwAt ws 1).toNat
  if l < d.pos.sysLine then count d (ra pgFab 0x150)
  else
    let skip := l - d.pos.sysLine - 1
    let d := { d with refLines :=
      (List.range skip).foldl (fun t i => tins t (d.pos.sysLine + 1 + i) none) d.refLines }
    let d := if skip = 0 then d else countBy d (ra pgFab 0x154) 31 0 skip
    let d := pokeBit d (ra pgFab 0x104) 26 false
    let up := (dfld w 47 40 + 256 - d.pos.epoch % 256) % 256
    let d := { d with pos := { d.pos with sysLine := l, refSeen := true } }
    let c := refDecision d m b l w
    let k := commitLine c.1 m
    let d := k.1
    let d := { d with pos := { d.pos with epoch := d.pos.epoch + up, epochPending := false } }
    let d := if up = 0 then d else pushMarker d (markerRec d 1 0 l 0 0)
    let d := refSteps d (dfld w 39 32) (toSigned 64 (dwAt ws 6).toNat)
    let st : Stamp := {
      camLine := l, sysLine := l, encCh := 8, tick := toSigned 64 (dwAt ws 2).toNat, frac := dfld (dwAt ws 5) 15 0,
      web := toSigned 64 (dwAt ws 3).toNat, time := refTime ws, epoch := d.pos.epoch, cycle := d.cycle,
      step := d.node.refCount, tstep := d.pos.timeSteps, ver := d.ver }
    let d := { d with pos := { d.pos with refStamp := some st }, refLines := tins d.refLines l (some st) }
    settle m b (d, c.2 ++ k.2)

/-- The node heeds the reference frames of this sender: the master in use (R480). -/
def fromMaster (d : Dev) (src : Nat) : Bool := (masterId d).all (fun k => decide (k = src))

/-- A REF_LINE or REF_IDLE arrives (R473, R475). -/
def refArrive (d : Dev) (m : Mem) (b : Boot) (src : Nat) (ws : List Dword) : Dev :=
  if remoteRef d && fromMaster d src then
    let d := { d with node := { d.node with refHeard := d.cycle } }
    if kindOf ws = 0 then
      match waitCycles d ((refTime ws : Int) + refDelay d) with
      | none => refEffect (count d (ra pgFab 0x150)) m b ws
      | some n => { d with node := { d.node with waits := d.node.waits ++ [{ words := ws, at' := d.cycle + n }] } }
    else d
  else d

/-- The wait that ends first. -/
def firstWait : List RefWait → Option RefWait
  | [] => none
  | x :: r =>
    match firstWait r with
    | none => some x
    | some y => if y.at' < x.at' then some y else some x

/-- The next waiting REF_LINE takes effect at its instant (R473). -/
def refWaitEnds (d : Dev) (m : Mem) (b : Boot) : Dev :=
  match firstWait d.node.waits with
  | none => d
  | some x =>
    let d := elapse d m b x.at'
    refEffect { d with node := { d.node with waits := d.node.waits.erase x } } m b x.words

/-- The reference falls silent (R475). -/
def refSilent (d : Dev) : Dev :=
  let a := ra pgFab 0x104
  if remoteRef d && !rb d a 26 then
    raiseOpen (evt (pokeBit d a 26 true) pgFab 4) pgFab 0x50 2 6
  else d

/-- A REF_IDLE after 100 µs without a reference trigger (R472). -/
def refIdle (d : Dev) : Dev := if remoteRef d then d else sendRef d none false

/-! ### Relayed counts -/

/-- FAB_RELAYr_CFG of relay `r`. -/
def relayCfgA (r : Nat) : Nat := ra pgFab (0x160 + 4 * r)

/-- The node publishes relay `r` (R477). -/
def relayOut (d : Dev) (r : Nat) : Bool := rb d (relayCfgA r) 31 && rb d (relayCfgA r) 30

/-- A sample of relay `r` leaves (R477). -/
def relayPublish (d : Dev) (r : Nat) : Dev :=
  if relayOut d r then
    let per := rf d (relayCfgA r) 15 0
    let d := { d with node := { d.node with relays := tmod d.node.relays r (fun x => { x with nextPub := d.cycle + per }) } }
    originate d 3 none [dpack [(59, 1, r)], dpack [(0, 64, sf 64 (ench d (rf d (relayCfgA r) 23 21)).count)],
      dpack [(32, 32, timeSec d), (0, 32, timeNs d)]]
  else d

/-- The instant of a sample in 2^-16 ns, its seconds taken nearest to the counter's (R477). -/
def sampleTime (d : Dev) (w : Dword) : Int :=
  let span : Nat := 2 ^ 32 * 1000000000
  let s := (dfld w 63 32 * 1000000000 + dfld w 31 0) % span
  let now := timeStamp d / 65536
  let k := (s + span - now % span) % span
  let k : Int := if k < span / 2 then k else (k : Int) - span
  ((now : Int) + k) * 65536

/-- A sample of relay `r` arrives (R478). -/
def relayArrive (d : Dev) (m : Mem) (b : Boot) (r src : Nat) (ws : List Dword) : Dev :=
  if relayIn d r && decide (rf d (relayCfgA r) 29 24 = src) then
    let d := { d with node := { d.node with relays := tmod d.node.relays r (fun x => { x with lastAt := d.cycle }) } }
    match waitCycles d (sampleTime d (dwAt ws 2) + refDelay d) with
    | none => relayApply d m b r (toSigned 64 (dwAt ws 1).toNat)
    | some n =>
      { d with node := { d.node with relays := tmod d.node.relays r (fun x =>
        { x with waits := x.waits ++ [{ words := ws, at' := d.cycle + n }] }) } }
  else d

/-- The next waiting sample of relay `r` takes effect (R478). -/
def relayWaitEnds (d : Dev) (m : Mem) (b : Boot) (r : Nat) : Dev :=
  match firstWait (tat d.node.relays r).waits with
  | none => d
  | some x =>
    let d := elapse d m b x.at'
    let d := { d with node := { d.node with relays := tmod d.node.relays r (fun y => { y with waits := y.waits.erase x }) } }
    if relayIn d r then relayApply d m b r (toSigned 64 (dwAt x.words 1).toNat) else d

/-! ### The time relay -/

/-- A time as words 2 and 3 carry it, in 2^-16 ns (R479). -/
def wordTime (hi lo : Dword) : Int := (((hi.toNat * 1000000000 + dfld lo 63 32) * 65536 + dfld lo 31 16 : Nat) : Int)

/-- The two words of a time in 2^-16 ns (R479). -/
def timeWords (t : Nat) : List Dword :=
  [BitVec.ofNat 64 (t / 65536 / 1000000000), dpack [(32, 32, t / 65536 % 1000000000), (16, 16, t % 65536)]]

/-- A time on the wire in 2^-16 ns. -/
def wire16 (t : WireTime) : Int := (((t.sec * 1000000000 + t.ns) * 65536 + t.frac : Nat) : Int)

/-- The present time as a frame on the wire has it. -/
def wireNow (d : Dev) : WireTime where
  sec := timeSec d
  ns := timeNs d
  frac := timeStamp d % 65536

/-- The payload of a SYNC (R479). -/
def syncPayload (d : Dev) : List Dword :=
  dpack [(54, 6, myId d), (32, 16, d.node.syncSeq)] :: (timeWords (timeStamp d) ++ [0])

/-- The time source broadcasts a SYNC (R479). -/
def syncSend (d : Dev) : Dev :=
  if rb d (ra pgFab 0x100) 14 then
    originate { d with node := { d.node with syncSeq := (d.node.syncSeq + 1) % 65536 } } 4 none (syncPayload d)
  else d

/-- A SYNC received on port `p`: the node's offset from the time source (R507). -/
def syncTake (d : Dev) (p : Nat) (ws : List Dword) (ingress : WireTime) : Dev :=
  if rb d (ra pgFab 0x100) 14 then d
  else
    let off := wire16 ingress - (wordTime (dwAt ws 1) (dwAt ws 2) + toSigned 64 (dwAt ws 3).toNat + (fbp d p).delay)
    let d := { d with node := { d.node with syncOff := some off } }
    if timeSource d = 2 then pokeBit { d with ptp := { d.ptp with usedAt := d.cycle } } (timeA 0x104) 26 false else d

/-- A frame of class 0x4 on one link, or of class 0x7 on the Pairing link (R479, R525). -/
def sendDelay (d : Dev) (p : Nat) (ws : List Dword) : Dev :=
  sendOn d p { f := { linkFrame d ws with cls := if isPairPort d p then 7 else 4,
                                           dst := BitVec.ofNat 6 (rf d (fabStatA p) 13 8) },
               arr := none, uid := 0 }

/-- Word 1 of a time frame on port `p`. On the Pairing link KIND is that of class 0x7, and R479's kind lies in the
reserved bits [3:0] (R541, DEDUCED, log 33). -/
def timeW1 (d : Dev) (p kind seq : Nat) : Dword :=
  if isPairPort d p then dpack [(60, 4, 6), (54, 6, myId d), (32, 16, seq), (0, 4, kind)]
  else dpack [(60, 4, kind), (54, 6, myId d), (32, 16, seq)]

/-- R479's kind of a time frame that came on port `p`. -/
def timeKind (d : Dev) (p : Nat) (ws : List Dword) : Nat := if isPairPort d p then dfld (dwAt ws 0) 3 0 else kindOf ws

/-- A PDELAY_REQ leaves on port `p` (R479). -/
def pdelayAsk (d : Dev) (p : Nat) : Dev :=
  if fabUp d p then
    let d := setFbp d p { (fbp d p) with pdAt := some (timeStamp d) }
    sendDelay d p [timeW1 d p 1 0, 0, 0, 0]
  else d

/-- A PDELAY_REQ is answered on its port (R479). -/
def pdelayAnswer (d : Dev) (p : Nat) (ws : List Dword) (ingress : WireTime) : Dev :=
  sendDelay d p (timeW1 d p 2 (dfld (dwAt ws 0) 47 32) ::
    (timeWords (wire16 ingress).toNat ++ [0] ++ timeWords (timeStamp d)))

/-- A PDELAY_RESP gives the link delay: half of the round trip less the responder's turnaround (R507). -/
def pdelayTake (d : Dev) (p : Nat) (ws : List Dword) (ingress : WireTime) : Dev :=
  match (fbp d p).pdAt with
  | none => d
  | some t1 =>
    let turn := wordTime (dwAt ws 4) (dwAt ws 5) - wordTime (dwAt ws 1) (dwAt ws 2)
    setFbp d p { (fbp d p) with delay := (wire16 ingress - t1 - turn) / 2, pdAt := none }

/-! ### Records on the fabric -/

/-- The collector's side of an origin node. -/
def coll (d : Dev) (k : Nat) : CollectSt := tat d.node.collect k

/-- Replace the collector's side of an origin node. -/
def setColl (d : Dev) (k : Nat) (c : CollectSt) : Dev :=
  { d with node := { d.node with collect := tset d.node.collect k c } }

/-- The edge on which a RECORD_ACK to node `k` is due (R461). -/
def ackDue (c : CollectSt) : Option Nat :=
  if c.unacked = 0 then none
  else
    let t := if 64 ≤ c.unacked then c.firstAt else c.firstAt + 4000
    some (match c.ackedAt with
      | none => t
      | some a => Nat.max t (a + 400))

/-- A RECORD_ACK leaves for node `k` (R461). -/
def ackRecords (d : Dev) (k : Nat) : Dev :=
  let c := coll d k
  match c.last with
  | none => d
  | some q =>
    if c.unacked = 0 then d
    else originate (setColl d k { c with unacked := 0, ackedAt := some d.cycle }) 5 (some k) [dpack [(60, 4, 1), (0, 48, q)]]

/-- A RECORD arrives at the collector and is entered unless it has been (R461). -/
def recordArrive (d : Dev) (src : Nat) (ws : List Dword) : Dev :=
  let seq := dfld (dwAt ws 2) 63 16
  let c := coll d src
  let fresh := c.last.all (fun q => decide (0 < (seq + seqMod - q) % seqMod ∧ (seq + seqMod - q) % seqMod < seqMod / 2))
  if fresh then
    let body : Rec := { w0 := dwAt ws 1, w1 := dwAt ws 2, w2 := dwAt ws 3, w3 := dwAt ws 4, w4 := dwAt ws 5,
                        w5 := dwAt ws 6, w6 := dwAt ws 7, w7 := dwAt ws 8 }
    let d := enterStore d { body := body, origin := src, seq := seq, relayed := true }
    let c := { c with last := some seq, unacked := c.unacked + 1, firstAt := if c.unacked = 0 then d.cycle else c.firstAt }
    let d := setColl d src c
    if 64 ≤ c.unacked && (ackDue c).all (fun t => decide (t ≤ d.cycle)) then ackRecords d src else d
  else d

/-- A RECORD_ACK arrives: destination 03 counts its records as delivered (R461). -/
def recordAckArrive (d : Dev) (ws : List Dword) : Dev := destAcked d (dfld (dwAt ws 0) 47 0)

/-- Destination 03 has records sent and not acknowledged (R461). -/
def dest3Waits (d : Dev) : Bool := destOn d 3 && decide ((dest d 3).pos < (dest d 3).sent)

/-- Destination 03 sends again (R461). -/
def dest3Resend (d : Dev) : Dev := if dest3Waits d then destResend d else d

end Sys2Proof.Machine
end

