-- ==== Sys2Proof/Machine/Pwr.lean ====
section
/-!
DEFINITION. The power states: Run, Idle and deep sleep, and what wakes the part (R572 to R577).
-/

namespace Sys2Proof.Machine

/-- Address of a register of the PWR page. -/
def pwrA (o : Nat) : Nat := ra pgPwr o

/-- PWR_STAT.STATE: 0 Run, 1 Idle, 3 transition. -/
def pwrState (d : Dev) : Nat := rf d (pwrA 0x104) 31 30

/-- A request is refused (R572). -/
def pwrRefuse (d : Dev) (cause : Nat) : Dev :=
  evt (poke (pokeBit d (pwrA 0x104) 27 true) (pwrA 0x104) 26 24 cause) pgPwr 2

/-- The part shows a new state (R572). -/
def pwrShow (d : Dev) (st : Nat) : Dev :=
  evt (pokeBit (poke d (pwrA 0x104) 31 30 st) (pwrA 0x104) 29 (decide (st = 3))) pgPwr 0

/-- A request for Run: Idle to Run (R577). -/
def reqRun (d : Dev) : Dev := if pwrState d = 1 then pwrShow d 0 else d

/-- What keeps the part from Idle (R572). -/
def idleHeld (d : Dev) : Bool :=
  (List.range 16).any (portOn d.force) || !(runningJobs d).isEmpty ||
    decide (rf d (ra pgTrk 0x104) 16 0 ≠ 0) || decide (rf d (ra pgTrk 0x108) 20 0 ≠ 0)

/-- A request for Idle from Run (R572). -/
def reqIdle (d : Dev) : Dev :=
  if pwrState d = 0 then (if idleHeld d then pwrRefuse d 1 else pwrShow d 1) else d

/-- Wake sources that are pending and enabled (R574, R575). -/
def wakeWanted (d : Dev) : Nat := rf d (pwrA 0x10C) 3 0 &&& rf d (pwrA 0x108) 3 0

/-- The reason to refuse a deep-sleep request, in the order of R572's table. -/
def sleepRefused (d : Dev) : Option Nat :=
  if rf d (pwrA 0x108) 3 0 = 0 then some 2
  else if (List.range 32).any (fun nn => fb d (histA nn 0) 31) || !d.jobq.isEmpty then some 3
  else if rb d (ra pgPair 0x100) 31 then some 4
  else if pwrState d = 0 then some 5
  else none

/-- Deep sleep is entered: the links go down, the memory refreshes itself, and the clocks stop (R574). -/
def enterSleep (d : Dev) : Dev :=
  let d := pwrShow d 3
  let d := (List.range 5).foldl (fun d p => poke (fabDown d p) (fabStatA p) 31 27 0) d
  let d := selfRefresh { d with ethUp := [] } true
  { d with life := .asleep, pwr := { d.pwr with sleptAt := d.cycle } }

/-- A request for deep sleep, decided on the next control-clock edge: a pending wake wins (R572, R574). -/
def reqDeepSleep (d : Dev) (m : Mem) (b : Boot) : Dev :=
  match sleepRefused d with
  | some c => pwrRefuse d c
  | none =>
    let d := elapse d m b (d.cycle + 1)
    if wakeWanted d = 0 then enterSleep d
    else evt (count (pokeBit d (pwrA 0x104) 28 true) (pwrA 0x118)) pgPwr 1

/-- A request that names no state (R578). -/
def reqBad (d : Dev) : Dev := pwrRefuse d Config.badReqCause.toNat

/-- A history context whose ring or index lies partly in a segment not kept is emptied (R429). -/
def emptyLost (d : Dev) : Dev :=
  let seg := lpxSize d / 8
  let keep := rf d (ra pgLpx 0x158) 7 0
  (List.range 32).foldl (fun d nn =>
    let cut := (histRegions d.force nn).any (fun r =>
      (List.range 8).any (fun s => !keep.testBit s && decide (r.1 < (s + 1) * seg ∧ s * seg < r.1 + r.2)))
    if cut then
      let s := wst d (nn / 2) (nn % 2)
      setWst d (nn / 2) (nn % 2) { s with hHeld := s.hNext, hBusy := [] }
    else d) d

/-- The part wakes into Idle (R576, R497). What the host sent meanwhile is carried out by the caller. -/
def wakeUp (d : Dev) (m : Mem) : Dev × Mem :=
  let m := loseSegments d m
  let d := { d with life := .up, time := { d.time with valid := false } }
  let d := resample (emptyLost (selfRefresh d false))
  let d := (List.range 5).foldl (fun d p => if rb d (fabCfgA p) 31 && !portHeld d p then startTraining d p else d) d
  let d := poke d (pwrA 0x104) 3 0 (rf d (pwrA 0x10C) 3 0)
  (evt (pwrShow d 1) pgPwr 3, m)

/-- Wake source `k` fires (R575). -/
def wakeFire (d : Dev) (m : Mem) (k : Nat) : Dev × Mem :=
  let d := pokeBit d (pwrA 0x10C) k true
  if d.life = .asleep ∧ wakeWanted d ≠ 0 then wakeUp d m else (d, m)

/-- The timer wakes the part only where PWR_TIMER is not 0 (R575, R578). -/
def timerWake (d : Dev) (m : Mem) : Dev × Mem :=
  if d.life = .asleep ∧ reg d (pwrA 0x110) ≠ 0 then wakeFire d m 2 else (d, m)

/-- Motion wakes the part only where a channel is chosen (R575, R578). -/
def motionWake (d : Dev) (m : Mem) : Dev × Mem :=
  if rf d (pwrA 0x114) 19 16 ≠ 0 then wakeFire d m 3 else (d, m)

end Sys2Proof.Machine
end

