-- ==== Sys2Proof/Machine/Therm.lean ====
section
/-!
DEFINITION. Temperature sensing, throttling and power limits, AVS, ageing, calibration and fault classes (R582 to
R608).
-/

namespace Sys2Proof.Machine

/-- Address of a register of the THERM page. -/
def thermA (o : Nat) : Nat := ra pgTherm o

/-- THERM_STAT. -/
def thermStatA : Nat := thermA 0x108

/-- THERM_Si of sensor `i` (R617). -/
def sensorA (i : Nat) : Nat := thermA (0x400 + 4 * i)

/-- THERM_Mu of unit `u` (R617). -/
def modelA (u : Nat) : Nat := thermA (0xB00 + 4 * u)

/-- The rand or Slath zone of sensor `i`: 4 × wale + rand, or 64 + zone (R582). -/
def unitOf (i : Nat) : Nat := i / 6

/-- The die of unit `u`: 0 to 3 Stake, 4 Slath. -/
def unitDie (u : Nat) : Nat := if u < 64 then u / 16 else 4

/-- Reading of sensor `i` in 1/8 °C. -/
def reading (d : Dev) (i : Nat) : Int := toSigned 16 (rf d (sensorA i) 15 0)

/-- A failed sensor (R584). -/
def sensorFailed (d : Dev) (i : Nat) : Bool := rb d (sensorA i) 31

/-- A sensor whose reading is valid: neither failed nor suspect (R585). -/
def sensorValid (d : Dev) (i : Nat) : Bool := !sensorFailed d i && !rb d (sensorA i) 30

/-- Model estimate of unit `u`. -/
def unitEst (d : Dev) (u : Nat) : Int := toSigned 16 (rf d (modelA u) 15 0)

/-- The sensors of unit `u`. -/
def unitSensors (u : Nat) : List Nat := (List.range 6).map (fun j => 6 * u + j)

/-- The units of a die. -/
def dieUnits (die : Nat) : List Nat := (List.range 68).filter (fun u => decide (unitDie u = die))

/-- Sensors read: in Idle the rands are gated and theirs are not (R585). -/
def sensorRead (d : Dev) (i : Nat) : Bool := decide (384 ≤ i) || decide (rf d (ra pgPwr 0x104) 31 30 ≠ 1)

/-- The valid sensors of a list that are read. -/
def validOf (d : Dev) (is : List Nat) : List Nat := is.filter (fun i => sensorValid d i && sensorRead d i)

/-- The median of readings; between two middle ones it is their mean (R583, DESIGN CHOICE, log 28). -/
def median (xs : List Int) : Int :=
  let s := isort (fun a b => decide (a ≤ b)) xs
  let n := s.length
  let hi := s.getD (n / 2) 0
  if n % 2 = 1 then hi
  else
    let lo := s.getD (n / 2 - 1) 0
    shr (lo + hi) 1 + (if (lo + hi) % 2 = 1 ∧ Config.medianUp lo hi then 1 else 0)

/-- The base of unit `u`, held while its die is blind (R583, R586). -/
def unitBase (d : Dev) (u : Nat) (blind : Bool) : Int :=
  if blind then tat d.therm.base u
  else median ((validOf d (((dieUnits (unitDie u)).filter (fun v => decide (v ≠ u))).flatMap unitSensors)).map (reading d))

/-- The thermal model of unit `u` with power `p` in 1/16 W (R583). -/
def modelStep (d : Dev) (u p : Nat) (blind : Bool) : Dev :=
  let base := unitBase d u blind
  let ss := base + shr ((p * rf d (thermA (0x150 + 4 * unitDie u)) 15 0 : Nat) : Int) 12
  let est := if d.therm.started.contains u then unitEst d u + shr (ss - unitEst d u) (rf d (thermA 0x114) 3 0) else base
  let started := if d.therm.started.contains u then d.therm.started else u :: d.therm.started
  setReg { d with therm := { d.therm with base := tset d.therm.base u base, started := started } } (modelA u)
    (wpack [(16, 16, p), (0, 16, sf 16 est)])

/-- The mean of `xs` and `r` differ by more than 8 °C; none is no difference. -/
def offMean (xs : List Int) (r : Int) : Bool := decide ((r * xs.length - xs.foldl (· + ·) 0).natAbs > 64 * xs.length)

/-- Whether a reading is suspect, against the sensors `ok` that were valid before this round (R584). -/
def suspect (d : Dev) (ok : List Nat) (i : Nat) : Bool :=
  let r := reading d i
  let others := (unitSensors (unitOf i)).filter (fun j => decide (j ≠ i) && ok.contains j)
  decide ((r - unitEst d (unitOf i)).natAbs > 64) && (others.isEmpty || offMean (others.map (reading d)) r)

/-- A sensor fails; when it is the hottest while S > 0, S is not lowered (R584, R593). -/
def failSensor (d : Dev) (i : Nat) : Dev :=
  let d := poke (pokeBit d (sensorA i) 31 true) (thermA 0x118) 8 0 (rf d (thermA 0x118) 8 0 + 1)
  let d := if rf d (thermA 0x10C) 8 0 = i ∧ 0 < throttleStep d then
      pokeBit { d with therm := { d.therm with held := some i } } thermStatA 28 true
    else d
  raiseOpen (evt d pgTherm 4) pgTherm 0x60 1 (if i < 384 then 1 else 4)

/-- Sensor `i` is checked (R584). -/
def checkSensor (ok : List Nat) (d : Dev) (i : Nat) : Dev :=
  if sensorFailed d i || !sensorRead d i then d
  else
    let old := (tat d.therm.suspects i).filter (fun t => decide (d.cycle < t + 400000000))
    let bad := suspect d ok i
    let at' := if bad then d.cycle :: old else old
    let d := { d with therm := { d.therm with suspects := tset d.therm.suspects i at' } }
    let d := poke (pokeBit d (sensorA i) 30 bad) (sensorA i) 29 28 (Nat.min 3 at'.length)
    if 3 ≤ at'.length then failSensor d i else d

/-- The effective value of sensor `i` (R585). -/
def effective (d : Dev) (i : Nat) : Int :=
  if !sensorRead d i then tat d.therm.base (unitOf i)
  else if sensorValid d i then reading d i else unitEst d (unitOf i) + 40

/-- The hottest effective value of a list of sensors, with the sensor; the lowest number on a tie. -/
def hottestOf (d : Dev) (is : List Nat) : Option (Nat × Int) :=
  is.foldl (fun (b : Option (Nat × Int)) i =>
    match b with
    | none => some (i, effective d i)
    | some q => if q.2 < effective d i then some (i, effective d i) else b) none

/-- The hottest temperature (R585). -/
def hottest (d : Dev) : Int := toSigned 16 (rf d thermStatA 15 0)

/-- Power limit of unit `k`: Stake 0 to 3, Slath 4, package 5 (R592, R617). -/
def powerLimit (d : Dev) (k : Nat) : Nat := rf d (thermA (0x130 + 4 * k)) 15 0

/-- The throttle condition (R588). -/
def throttleNeed (d : Dev) : Bool :=
  decide (hottest d ≥ 8 * rf d (thermA 0x100) 15 8) || (List.range 6).any (fun k => decide (tat d.therm.power k > powerLimit d k))

/-- The release condition (R588, R593). -/
def throttleRelease (d : Dev) : Bool :=
  let t : Int := 8 * rf d (thermA 0x100) 15 8
  decide (hottest d < t - 40) && (List.range 6).all (fun k => decide (16 * tat d.therm.power k ≤ 15 * powerLimit d k)) &&
    match d.therm.held with
    | none => true
    | some i => decide (effective d i < t - 80)

/-- AT_RISK sets (R591). -/
def setAtRisk (d : Dev) : Dev :=
  if rb d thermStatA 29 then d
  else raiseOpen (evt (pokeBit d thermStatA 29 true) pgTherm 3) pgTherm 0x62 2 5

/-- AT_RISK clears when need clears (R591). -/
def clearAtRisk (d : Dev) : Dev := if throttleNeed d then d else pokeBit d thermStatA 29 false

/-- WARN (R587). -/
def warnLevel (d : Dev) : Dev :=
  let w : Int := 8 * rf d (thermA 0x100) 7 0
  if hottest d ≥ w ∧ !rb d thermStatA 31 then
    raiseOpen (evt (pokeBit d thermStatA 31 true) pgTherm 0) pgTherm 0x61 0 5
  else if hottest d < w - 40 then pokeBit d thermStatA 31 false
  else d

/-- The dies with fewer than 8 valid sensors (R586). -/
def blindDies (d : Dev) : List Nat :=
  (List.range 5).filter (fun k =>
    let is := ((dieUnits k).flatMap unitSensors).filter (sensorRead d)
    !is.isEmpty && decide ((validOf d is).length < 8))

/-- DIE_BLIND follows the blind dies, each reported as it becomes blind (R586). -/
def markBlind (d : Dev) (was now : List Nat) : Dev :=
  let d := (now.filter (fun k => !was.contains k)).foldl (fun d _ => raiseOpen d pgTherm 0x65 2 4) d
  pokeBit d thermStatA 25 (!now.isEmpty)

/-- The samples of the monitors of a sensor round (R606). -/
def roundSamples (d : Dev) : Dev :=
  let d := (List.range 5).foldl (fun d k => monSample d (0x20 + k) (rf d (ra pgAvs (0x100 + 0x40 * k)) 15 0)) d
  let d := (List.range 6).foldl (fun d k => monSample d (0x25 + k) (Config.railMv (0x25 + k) d.cycle)) d
  let d := monSample d 0x30 (hottest d)
  (List.range 5).foldl (fun d k =>
    match hottestOf d ((dieUnits k).flatMap unitSensors) with
    | none => d
    | some q => monSample d (0x31 + k) q.2) d

/-- One round of sensing: readings, models, checks, the hottest temperature and its levels (R582 to R587, R591). -/
def sensorRound (d : Dev) (readings : List (BitVec 16)) (powers : List Nat) : Dev :=
  let all := List.range 408
  let was := blindDies d
  let d := all.foldl (fun d i => if sensorRead d i then poke d (sensorA i) 15 0 (readings.getD i 0).toNat else d) d
  let ok := validOf d all
  let blind := blindDies d
  let d := (List.range 68).foldl (fun d u => modelStep d u (powers.getD u 0) (blind.contains (unitDie u))) d
  let d := all.foldl (checkSensor ok) d
  let d := markBlind d was (blindDies d)
  let d := match hottestOf d all with
    | none => d
    | some q => poke (poke d thermStatA 15 0 (sf 16 q.2)) (thermA 0x10C) 8 0 q.1
  let d := warnLevel d
  let d := if hottest d ≥ 880 then setAtRisk d else clearAtRisk d
  roundSamples d

/-- A 10 ms average of power: unit 0 to 3 Stake, 4 Slath, 5 the package (R592). -/
def powerAverage (d : Dev) (k avg : Nat) : Dev :=
  let d := { d with therm := { d.therm with power := tset d.therm.power k avg } }
  let d := if k = 5 then poke d (thermA 0x148) 15 0 avg else d
  if avg > powerLimit d k then evt d pgTherm 7 else clearAtRisk d

/-- Throttle step 1 abandons the scans in progress and waiting (R167, R448, R589). -/
def abandonScans (d : Dev) : Dev :=
  let d := (List.range 16).foldl (fun d n =>
    let ks := (skp d n).scans
    ks.foldl (fun d k => scanBusy d (pgSkein n) k false) (setSkp d n { (skp d n) with scans := [] })) d
  (List.range 5).foldl (fun d p =>
    let ks := (fbp d p).scans
    ks.foldl (fun d k => scanBusy d (pgFabPort p) k false) (setFbp d p { (fbp d p) with scans := [] })) d

/-- The throttle step takes a new value, with what that sheds (R588, R589, R593). -/
def setStep (d : Dev) (s : Nat) : Dev :=
  let was := throttleStep d
  let d := pokeBit (poke d thermStatA 18 16 s) thermStatA 30 (decide (0 < s))
  let d := if was < s then evt d pgTherm 1 else if s < was then evt d pgTherm 2 else d
  let d := if s = 0 then pokeBit { d with therm := { d.therm with held := none } } thermStatA 28 false else d
  histStat (if was = 0 ∧ 0 < s then abandonScans d else d)

/-- One evaluation of the throttle step (R588, R590, R591, R593). -/
def throttleEval (d : Dev) : Dev :=
  let g := thermA 0x120
  let b := groupBoundsNow d g
  let s : Int := throttleStep d
  let need := throttleNeed d
  let next := if need then s + 1 else if throttleRelease d then s - 1 else s
  let r := loopStep s (satI next 0 4) b.1 b.2 1
  let held := d.therm.pressed && need && decide (s = b.2)
  let d := setPinned (setStep d r.value.toNat) g pgTherm 5 r.lo r.hi
  let d := if held then setAtRisk d else clearAtRisk d
  let on := need || decide (r.value ≠ 0) || decide (r.value < b.1)
  { d with therm := { d.therm with pressed := need && decide (r.value = b.2), evalAt := if on then some d.cycle else none } }

/-- The edge of the next evaluation: DWELL after the last, or now when the condition first becomes true (R588). -/
def throttleAt (d : Dev) : Option Nat :=
  match d.therm.evalAt with
  | some t => some (t + 400000 * rf d (thermA 0x110) 15 0)
  | none =>
    if throttleNeed d || decide ((throttleStep d : Int) < (groupBoundsNow d (thermA 0x120)).1) then some d.cycle else none

/-! ### AVS and ageing -/

/-- Address of a register of die `k` on the AVS page (R618). -/
def avsA (k o : Nat) : Nat := ra pgAvs (0x100 + 0x40 * k + o)

/-- MARGIN_LOW holds: m is below MARGIN_MIN with the code at the effective ceiling (R600). -/
def marginLow (d : Dev) (k : Nat) : Bool :=
  decide (rf d (avsA k 0) 23 16 < rf d (avsA k 4) 7 0) &&
    decide ((rf d (avsA k 0) 30 24 : Int) = (groupBoundsNow d (avsA k 0x10)).2)

/-- One update of a die's AVS loop (R598 to R600). -/
def avsUpdate (d : Dev) (k m mv : Nat) : Dev :=
  let was := marginLow d k
  let g := reg d (avsA k 4)
  let code : Int := rf d (avsA k 0) 30 24
  let tgt := if k < 4 ∧ throttleStep d = 4 then fld g 7 0 else fld g 15 8
  let next := if m < tgt then code + 1 else if m > tgt + fld g 23 16 then code - 1 else code
  let b := groupBoundsNow d (avsA k 0x10)
  let r := loopStep code next b.1 b.2 1
  let d := setReg d (avsA k 0) (wpack [(24, 7, r.value.toNat), (16, 8, m), (0, 16, mv)])
  let d := setPinned d (avsA k 0x10) pgAvs k r.lo r.hi
  if marginLow d k ∧ !was then raiseOpen (evt d pgAvs 5) pgAvs 0x63 2 4 else d

/-- The hourly ageing measurement of a die (R601). -/
def ageMeasure (d : Dev) (k now : Nat) : Dev :=
  let base := rf d (avsA k 0x24) 15 0
  let first := (tat d.health.floor0 k).getD (reg d (avsA k 0x10)).toNat
  let d := poke { d with health := { d.health with floor0 := tset d.health.floor0 k (some first) } } (avsA k 0x20) 15 0 now
  let lift := if base = 0 then 0 else (base - now) * 200 / base
  let ceil := (groupBoundsNow d (avsA k 0x10)).2
  let was := (reg d (avsA k 0x10)).toInt
  let floor' : Int := first + lift
  let d := setReg d (avsA k 0x10) (BitVec.ofInt 32 floor')
  if floor' ≥ ceil - 4 ∧ was < ceil - 4 then raiseOpen (evt d pgAvs 6) pgAvs 0x64 1 4 else d

/-! ### Calibration -/

/-- Class and number of a calibration target (R602). -/
def calKey : CalTarget → Nat × Nat
  | .cameraLane n k => (0, 6 * n.val + k.val)
  | .fabricLane p k => (1, 4 * p.val + k.val)
  | .lpxChannel c => (2, c.val)
  | .qdrChannel c => (3, c.val)
  | .delayLine n => (4, n.val)

/-- The targets of a class. -/
def calTargets (cls : Nat) : List Nat := List.range ([96, 20, 16, 4, 16].getD cls 0)

/-- The sensor local to a target: weaver 0 of the front rand of the wale that a skein feeds, or the nearest Slath
sensor (R602, DESIGN CHOICE, log 21). -/
def calSensor (d : Dev) (cls t : Nat) : Nat :=
  if cls = 0 then 24 * ((ctxOfPort d.force (t / 6)).map (fun c => c.1)).getD (t / 6)
  else 384 + Config.nearSensor (1000 * cls + t) % 24

/-- CAL_STAT shows the classes running and queued (R619). -/
def calStat (d : Dev) : Dev :=
  let run := fun c => (tat d.health.calRun c).isSome
  let wait := fun c => d.health.calQueue.any (fun q => decide (q.1 = c))
  let word := fun (p : Nat → Bool) => (List.range 5).foldl (fun a c => a + (p c).toNat * 2 ^ c) 0
  setReg d (ra pgCal 0x108) (wpack [(0, 5, word run), (8, 5, word wait)])

/-- An idle class starts its next target, in target order (R602); throttle step 1 starts no eye scan (R589), and a management
restart holds every run (R641). -/
def calStart (d : Dev) (cls : Nat) : Dev :=
  let ts := (d.health.calQueue.filter (fun q => decide (q.1 = cls))).map (fun q => q.2)
  match ts with
  | [] => d
  | t :: r =>
    if (tat d.health.calRun cls).isSome ∨ (cls < 2 ∧ 1 ≤ throttleStep d) ∨ d.restart then d
    else
      let k := r.foldl Nat.min t
      let h := d.health
      { d with health := { h with calQueue := h.calQueue.filter (fun q => decide (q ≠ (cls, k))), calRun := tset h.calRun cls (some k),
                                  calTemp := tset h.calTemp (1000 * cls + k) (reading d (calSensor d cls k)) } }

/-- Every idle class starts. -/
def calStartAll (d : Dev) : Dev := calStat ((List.range 5).foldl calStart d)

/-- Queue one target; one queued or running already is merged (R602). -/
def calQueue (d : Dev) (cls t : Nat) : Dev :=
  if d.health.calQueue.contains (cls, t) || decide (tat d.health.calRun cls = some t) then count d (ra pgCal 0x10C)
  else { d with health := { d.health with calQueue := d.health.calQueue ++ [(cls, t)] } }

/-- CAL_GO: every target of the classes named (R602). -/
def calGo (d : Dev) (classes : Nat) : Dev :=
  calStartAll ((bitIdx 5 classes).foldl (fun d c => (calTargets c).foldl (fun d t => calQueue d c t) d) d)

/-- The check every 100 ms (R602). -/
def calCheck (d : Dev) : Dev :=
  if rb d (ra pgCal 0x100) 31 then
    let far := fun (d : Dev) c t =>
      decide ((reading d (calSensor d c t) - tat d.health.calTemp (1000 * c + t)).natAbs > 8 * rf d (ra pgCal 0x100) 5 0)
    calStartAll ((List.range 5).foldl (fun d c => (calTargets c).foldl (fun d t => if far d c t then calQueue d c t else d) d) d)
  else d

/-- FINE_TAP of output `nn` under `tpc` taps a cycle (R605). -/
def fineTap (d : Dev) (nn tpc : Nat) : Nat := (2 * ff d (ra pgTrg (0x108 + 0x10 * nn)) 7 0 * 10 * tpc + 2500) / 5000

/-- The residual of a delay line in ps, rounded (R605). -/
def fineRest (d : Dev) (nn tpc : Nat) : Nat :=
  let want : Int := ff d (ra pgTrg (0x108 + 0x10 * nn)) 7 0 * 10
  (roundDiv (((fineTap d nn tpc * 2500 : Nat) : Int) - want * tpc).natAbs tpc).toNat

/-- A run failed: old values stay (R604). -/
def calFail (d : Dev) : Dev := evt (count d (ra pgCal 0x110)) pgCal 1

/-- A delay line's measurement, TPC being the taps of one cycle (R604, R605). -/
def calDelay (d : Dev) (nn tpc : Nat) : Dev :=
  if 100 ≤ tpc ∧ tpc ≤ 250 then
    let d := setReg d (ra pgCal (0x140 + 4 * nn)) (wpack [(24, 8, tpc), (16, 8, fineRest d nn tpc)])
    poke d (ra pgTrg (0x108 + 0x10 * nn)) 15 8 (fineTap d nn tpc)
  else calFail d

/-- The result of a lane's scan under the limits of its class (R166, R448, R604). -/
def calLane (d : Dev) (pg k b ui lo hi : Nat) (r : EyeResult) : Dev :=
  let e := scanResult d pg k b ui lo hi r
  if 8 ≤ r.width ∧ r.width ≤ 60 ∧ lo ≤ r.height ∧ r.height ≤ hi then e else calFail e

/-- A calibration run ends (R603 to R605); the figures of a memory channel arrive with its training. -/
def calDone (d : Dev) (t : CalTarget) (r : EyeResult) : Dev :=
  let k := calKey t
  if tat d.health.calRun k.1 = some k.2 then
    let d := { d with health := { d.health with calRun := tset d.health.calRun k.1 none } }
    let d := match t with
      | .cameraLane n l => calLane d (pgSkein n) l 12 6400 20 400 r
      | .fabricLane p l => calLane d (pgFabPort p) l 6 3556 15 300 r
      | .delayLine n => calDelay d n r.width
      | _ => if 16 ≤ r.width ∧ r.width ≤ 56 ∧ 40 ≤ r.height ∧ r.height ≤ 400 then d else calFail d
    calStartAll (evt d pgCal 0)
  else d

/-! ### Transient and lasting faults -/

/-- Address of a register of class `k` on the FLT page (R621). -/
def fltA (k o : Nat) : Nat := ra pgFlt (0x100 + 0x10 * k + o)

/-- The tracking table of a class with an event at `loc`: the oldest entry gives way when it is full (R607). -/
def fltTrack (d : Dev) (k loc : Nat) : Dev × FaultLoc :=
  let t := tat d.health.faults k
  let w := 400000 * rf d (fltA k 0) 23 0
  let put := fun (d : Dev) (t : List FaultLoc) => { d with health := { d.health with faults := tset d.health.faults k t } }
  match t.find? (fun x => decide (x.loc = loc)) with
  | some x =>
    let y := { x with at' := d.cycle :: x.at'.filter (fun c => decide (d.cycle ≤ c + w)) }
    (put d (t.map (fun z => if z.loc = loc then y else z)), y)
  | none =>
    let y : FaultLoc := { loc := loc, at' := [d.cycle] }
    if t.length < 64 then (put d (t ++ [y]), y)
    else
      let last := fun (z : FaultLoc) => z.at'.headD 0
      let old := t.foldl (fun b z => Nat.min b (last z)) (last (t.headD {}))
      (put (count d (fltA k 8)) ((t.eraseP (fun z => decide (last z = old))) ++ [y]), y)

/-- A corrected event of class `k` at a location; `level` is that of the error a lasting one reports (R607). -/
def faultEvent (d : Dev) (k loc level : Nat) : Dev :=
  if !rb d (fltA k 0) 31 then d
  else
    let r := fltTrack d k loc
    let d := r.1
    if rf d (fltA k 0) 27 24 ≤ r.2.at'.length ∧ !r.2.lasting then
      let mark := (tat d.health.faults k).map (fun z => if z.loc = loc then { z with lasting := true } else z)
      let d := { d with health := { d.health with faults := tset d.health.faults k mark } }
      let d := setReg (count d (fltA k 4)) (fltA k 12) (BitVec.ofNat 32 loc)
      let d := raise (evt d pgFlt k) pgFlt 0x12 1 level loc
      if k = 1 then retireSlot d loc else d
    else d

/-- The level of a lasting fault (R614). -/
def faultLevel (k : Nat) (inWale : Bool) : Nat := if k = 2 then 1 else if k = 0 ∧ inWale then 3 else 4

/-- A lasting row of die `k` switches to a spare, while one is left (R608). -/
def rowRemap (d : Dev) (k loc : Nat) : Dev :=
  let a := ra pgFlt (0x180 + 4 * k)
  if rf d a 15 0 = 0 then raise (evt d pgFlt 4) pgFlt 0x12 2 (if k < 4 then 3 else 4) loc
  else poke d a 15 0 (rf d a 15 0 - 1)

end Sys2Proof.Machine
end

