-- ==== Sys2Proof/Machine/Twin.lean ====
section
/-!
DEFINITION. Pairing: roles, the agreement checks, the delivery gate, failover, swaps, and the snapshot of a join (R514 to
R540). What the mirrored writes and forwarded frames do stands with the host's writes and the fabric's frames.
-/

namespace Sys2Proof.Machine

/-- Address of a register of the PAIR page (R542). -/
def pairA (o : Nat) : Nat := ra pgPair o

/-- Change the Pairing state. -/
def setPair (d : Dev) (p : PairSt) : Dev := { d with pair := p }

/-- PAIR_STAT.STATE takes a value (R517). -/
def pairTo (d : Dev) (st : Nat) : Dev := poke d (pairA 0x104) 31 29 st

/-- A standby part in agreement falls out of it (R517). -/
def unsync (d : Dev) : Dev := if pairState d = 3 then evt (pairTo d 6) pgPair 3 else d

/-- PHASE of a join (R542). -/
def joinPhase (d : Dev) : Nat := rf d (pairA 0x12C) 31 29

/-- Ports 0 to 3 go down and are held disabled (R519). -/
def holdPorts (d : Dev) : Dev :=
  (List.range 4).foldl (fun d p => poke (fabDown d p) (fabStatA p) 31 27 0) d

/-- Ports 0 to 3 come up as their EN asks (R532). -/
def freePorts (d : Dev) : Dev :=
  (List.range 4).foldl (fun d p =>
    if rb d (fabCfgA p) 31 && !rb d (fabStatA p) 31 && !rb d (fabStatA p) 30 then startTraining d p else d) d

/-- The part is healthy: it drives PAIR_OK_OUT high while it is a member (R515). -/
def pairHealthy (d : Dev) : Bool := !d.stopped && decide (d.life = .up)

/-! ### Roles -/

/-- Joining starts, or starts again: JOIN_REQ carries this part's Pairing protocol versions (R518, R539 step 1). What was
armed or held here gives way to the active part's state. -/
def startJoin (d : Dev) : Dev :=
  let d := pairTo (poke (poke d (pairA 0x12C) 31 29 0) (pairA 0x12C) 19 0 0) 2
  let d := setPair d { d.pair with
    actOut := false, claimAt := none, claimed := none, protect := false, swap := none, digests := [], twinDigests := [],
    matched := 0, joinAt := d.cycle, joinFrom := none, buf := [], posn := [], trigs := [], recs := [], xorC := 0, held := [],
    mirAck := 0, armSent := [], armAcked := [] }
  let d := { d with arming := [] }
  sendPair (holdPorts d) [dpack [(60, 4, 7)], dpack [(8, 8, d.img.pair), (0, 8, d.img.pairMin)]]

/-- The part is active from now on, with its twin present or not (R517, R518). -/
def becomeActive (d : Dev) : Dev :=
  pairTo (setPair d { d.pair with actOut := true, claimAt := none }) (if d.pair.okIn then 5 else 1)

/-- Control-clock edges of a claim delay (R518). -/
def claimDelay (d : Dev) (b : Boot) : Nat :=
  match rb d (pairA 0x100) 30, b.side with
  | true, false => 0
  | true, true => 4000
  | false, false => 8000
  | false, true => 12000

/-- Roles are decided from the health balls: at the end of Upsett, and when EN is written on a running part (R518). -/
def pairRole (d : Dev) (b : Boot) : Dev :=
  if !pairEn d then d
  else
    let d := setPair d { d.pair with okOut := pairHealthy d }
    if !d.pair.okIn then becomeActive d
    else if d.pair.actIn then startJoin d
    else setPair d { d.pair with claimAt := some (d.cycle + claimDelay d b) }

/-- The claim delay ends, PAIR_ACT_IN being at `act`: the part starts joining or claims (R518). -/
def claimEnds (d : Dev) (m : Mem) (b : Boot) (act : Bool) : Dev :=
  match d.pair.claimAt with
  | none => d
  | some t =>
    let d := elapse d m b t
    let d := setPair d { d.pair with actIn := act }
    if act then startJoin d
    else
      let d := becomeActive d
      setPair d { d.pair with claimed := some d.cycle }

/-- A microsecond after a claim, or PAIR_ACT_IN rising within it: then the part on side 1 gives way and joins, and the one
on side 0 holds its claim anew (R518). -/
def claimConfirm (d : Dev) (m : Mem) (b : Boot) (act : Bool) : Dev :=
  match d.pair.claimed with
  | none => d
  | some t =>
    if act then
      let d := setPair d { d.pair with actIn := true }
      if b.side then startJoin d else setPair d { d.pair with claimed := some d.cycle }
    else
      let d := elapse d m b (t + 400)
      setPair d { d.pair with actIn := false, claimed := none }

/-- PAIR_OK_IN rises, PAIR_ACT_IN being at `act` (R517). -/
def okRises (d : Dev) (act : Bool) : Dev :=
  let d := setPair d { d.pair with okIn := true, actIn := act }
  if pairEn d && decide (pairState d = 1) then pairTo d 5 else d

/-- The difference of the cross-checked counts (R524). -/
def checkDiff (d : Dev) : Int :=
  (ench d (rf d (pairA 0x100) 26 25)).count - (ench d (rf d (pairA 0x100) 24 23)).count

/-- The pair has become PROTECTED: the cross-check takes its difference (R524). -/
def protectNow (d : Dev) : Dev := setPair d { d.pair with protect := true, encDiff := checkDiff d }

/-! ### Heartbeats and the delivery gate -/

/-- Something was heard on the Pairing link (R528). -/
def pairHeard (d : Dev) : Dev := setPair d { d.pair with heardAt := d.cycle }

/-- A HEARTBEAT of this part (R529, R541). -/
def sendHeartbeat (d : Dev) : Dev :=
  if pairEn d then sendPair d [dpack [(57, 3, pairState d), (0, 48, d.border.seq)]] else d

/-- A REPORT of the active part (R530, R541). -/
def sendReport (d : Dev) : Dev :=
  if pairActive d then
    sendPair d (dpack [(60, 4, 1), (0, 48, d.border.seq)] :: (List.range 4).map (fun dd => dpack [(0, 48, destNext d dd)]))
  else d

/-- A HEARTBEAT of the twin: its state and FORMED (R517, R529). -/
def takeHeartbeat (d : Dev) (ws : List Dword) : Dev :=
  if !pairEn d then d
  else
    let twin := dfld (dwAt ws 0) 59 57
    let d := setPair (pairHeard d) { (pairHeard d).pair with twinFormed := dfld (dwAt ws 0) 47 0, formedAt := d.cycle }
    match pairState d with
    | 5 => if twin = 3 then protectNow (evt (pairTo d 4) pgPair 2) else d
    | 4 => if twin = 6 ∨ twin = 2 then pairTo (setPair d { d.pair with protect := false }) 5 else d
    | 3 =>
      if twin = 4 then (if d.pair.protect then d else protectNow d)
      else if twin = 5 ∧ d.pair.protect then unsync d
      else d
    | _ => d

/-- How far the twin's FORMED lies behind this part's next number. -/
def formedLag (d : Dev) : Nat :=
  let k := (d.border.seq + seqMod - d.pair.twinFormed) % seqMod
  if k < seqMod / 2 then k else 0

/-- The standby's FORMED is too old or too far behind: the gate opens and the pair is no longer protected (R529). -/
def gateTimeout (d : Dev) (m : Mem) (b : Boot) : Dev :=
  if pairEn d && decide (pairState d = 4) then
    let d := if formedLag d > 4096 then d else elapse d m b (d.pair.formedAt + usCycles (rf d (pairA 0x114) 23 16))
    pairTo (setPair d { d.pair with protect := false }) 5
  else d

/-- The place in the store of the first record of this part from a sequence number on (R530). -/
def seekStore (d : Dev) (next : Nat) : Nat :=
  let i := d.border.store.findIdx (fun r => !r.relayed && decide ((r.seq + seqMod - next) % seqMod < seqMod / 2))
  d.border.base + i

/-- A REPORT gives a standby part each destination's NEXT, from which it would resume (R519, R530). -/
def takeReport (d : Dev) (ws : List Dword) : Dev :=
  if standby d then
    let d := setPair (pairHeard d) { (pairHeard d).pair with twinFormed := dfld (dwAt ws 0) 47 0, formedAt := d.cycle }
    storeCounts ((List.range 4).foldl (fun d dd =>
      let p := seekStore d (dfld (dwAt ws (1 + dd)) 47 0)
      setDest d dd { (dest d dd) with pos := p, sent := p, miss := [], queue := [] }) d)
  else d

/-- The Pairing link has been silent for LINK_SILENT while the twin is well (R528). -/
def linkSilent (d : Dev) (m : Mem) (b : Boot) : Dev :=
  if pairEn d && d.pair.okIn && decide (pairState d ≠ 0) then
    unsync (evt (elapse d m b (d.pair.heardAt + usCycles (rf d (pairA 0x114) 31 24))) pgPair 7)
  else d

/-! ### Triggers and counts -/

/-- A trigger and the bus do not agree (R523). -/
def trigMismatch (d : Dev) : Dev := unsync (evt (count d (pairA 0x144)) pgPair 5)

/-- A pulse is seen on the trigger bus of output `nn`, or, with `seen` clear, the time of the oldest mark there ends: a
trigger without a pulse, or a pulse without a trigger (R523). -/
def busPulse (d : Dev) (m : Mem) (b : Boot) (nn : Nat) (seen : Bool) : Dev :=
  if !standby d then d
  else if seen then
    match d.pair.trigs.find? (fun k => !k.seen && decide (k.nn = nn) && trigNear d k.edge d.cycle) with
    | some k => setPair d { d.pair with trigs := d.pair.trigs.erase k }
    | none => setPair d { d.pair with trigs := d.pair.trigs ++ [{ nn := nn, edge := d.cycle, seen := true }] }
  else
    match d.pair.trigs.find? (fun k => !k.told && decide (k.nn = nn)) with
    | none => d
    | some k =>
      let d := elapse d m b (k.edge + trigTol d + 1)
      if !d.pair.trigs.contains k then d
      else
        let ms := if k.seen then d.pair.trigs.erase k
          else d.pair.trigs.map (fun x => if x = k then { x with told := true } else x)
        trigMismatch (setPair d { d.pair with trigs := ms })

/-- The cross-check at a block end (R524). -/
def encCheck (d : Dev) : Dev :=
  if pairEn d && rb d (pairA 0x100) 27 && decide (checkDiff d ≠ d.pair.encDiff) then
    let d := setPair d { d.pair with encDiff := checkDiff d }
    unsync (raiseOpen (evt (count d (pairA 0x148)) pgPair 6) pgPair 0x51 2 6)
  else d

/-! ### Digests -/

/-- The bytes of a record as a digest covers them: W6 and W7[15:0] are 0 (R526). -/
def digestBytes (r : Rec) : List Byte := recBytes { r with w6 := 0, w7 := r.w7 &&& ~~~ (0xFFFF : Dword) }

/-- What a digest covers of one segmentation context: thresholds, credit, and the sum of its background words (R526). -/
def segDigest (d : Dev) (w x : Nat) : List Byte :=
  (List.range 3).flatMap (fun k => leBytes 4 (thr d w x k)) ++ leBytes 4 (rf d (segA w x 0x114) 23 0) ++
    leBytes 4 ((List.range (sgs d w x).cols.length).foldl (fun a i => a + bgWord d w x i) 0 % 2 ^ 32)

/-- The enabled contexts, in wale order (R526). -/
def liveContexts (d : Dev) : List (Nat × Nat) :=
  (List.range 32).filterMap (fun k => if (camStation d.force (k / 2) (k % 2)).isSome then some (k / 2, k % 2) else none)

/-- The digest of block `blk` as it stands now (R526). The layout of what the segmentation CRC covers is the model's
(PRESUMED, log 35). -/
def digestNow (d : Dev) (blk : Nat) : Digest where
  block := blk
  epoch := d.pos.epoch % 256
  nextSeq := d.border.seq
  recs := d.pair.recs.length % 2 ^ 32
  crc := crc32c (d.pair.recs.flatMap digestBytes)
  coilNext := (reg d (ra pgTrk 0x110)).toNat
  xorC := d.pair.xorC
  open' := (d.trk.handles.filter (fun e => (openOf e.2).isSome)).length
  segCrc := crc32c ((liveContexts d).flatMap (fun c => segDigest d c.1 c.2))

/-- The words of a DIGEST frame (R541). -/
def digestWords (g : Digest) : List Dword :=
  [dpack [(60, 4, 2)], dpack [(0, 64, g.block)], dpack [(56, 8, g.epoch), (0, 48, g.nextSeq)],
    dpack [(32, 32, g.recs), (0, 32, g.crc)], dpack [(32, 32, g.coilNext), (0, 32, g.xorC)],
    dpack [(32, 32, g.open'), (0, 32, g.segCrc)]]

/-- A DIGEST frame as received (R541). -/
def digestOf (ws : List Dword) : Digest where
  block := (dwAt ws 1).toNat
  epoch := dfld (dwAt ws 2) 63 56
  nextSeq := dfld (dwAt ws 2) 47 0
  recs := dfld (dwAt ws 3) 63 32
  crc := dfld (dwAt ws 3) 31 0
  coilNext := dfld (dwAt ws 4) 63 32
  xorC := dfld (dwAt ws 4) 31 0
  open' := dfld (dwAt ws 5) 63 32
  segCrc := dfld (dwAt ws 5) 31 0

/-- A join fails (R540), and starts again from its first step. -/
def joinFails (d : Dev) (cause : Nat) : Dev :=
  if pairEn d && decide (pairState d = 2) then
    startJoin (evt (count (poke d (pairA 0x12C) 28 24 cause) (pairA 0x154)) pgPair 9)
  else d

/-- Two digests differ, or one has not come in time (R527); a joining part that has caught up fails its join (R540). -/
def disagree (d : Dev) : Dev :=
  let d := evt (count d (pairA 0x140)) pgPair 4
  match pairState d with
  | 2 => joinFails d 4
  | 3 => if rb d (pairA 0x100) 28 then startJoin (unsync d) else unsync d
  | 4 => pairTo (setPair d { d.pair with protect := false }) 5
  | _ => d

/-- The part compares digests: in agreement, or joining and caught up (R526, R539). -/
def compares (d : Dev) : Bool :=
  pairEn d && (decide (pairState d = 3) || decide (pairState d = 4) || (decide (pairState d = 2) && decide (joinPhase d = 4)))

/-- Digests that agree; the second one ends a join (R539 step 6). -/
def agree (d : Dev) : Dev :=
  let d := setPair d { d.pair with matched := d.pair.matched + 1 }
  if pairState d = 2 ∧ 2 ≤ d.pair.matched then evt (pairTo d 3) pgPair 2 else d

/-- Compare what digests both parts have of one block (R526, R527). -/
def matchDigests (d : Dev) : Dev :=
  match d.pair.digests.find? (fun g => d.pair.twinDigests.any (fun t => decide (t.block = g.block))) with
  | none => d
  | some g =>
    match d.pair.twinDigests.find? (fun t => decide (t.block = g.block)) with
    | none => d
    | some t =>
      let newer := fun (l : List Digest) => l.filter (fun k => decide (k.block > g.block))
      let d := setPair d { d.pair with digests := newer d.pair.digests, twinDigests := newer d.pair.twinDigests }
      let d := setReg (setReg d (pairA 0x124) (BitVec.ofNat 32 g.block)) (pairA 0x128) (BitVec.ofNat 32 (g.block / 2 ^ 32))
      if compares d then (if g = t then agree d else disagree d) else d

/-- A DIGEST frame arrives (R526). -/
def takeDigest (d : Dev) (ws : List Dword) : Dev :=
  if !pairEn d then d
  else
    let d := pairHeard d
    matchDigests (setPair d { d.pair with twinDigests := (d.pair.twinDigests ++ [digestOf ws]).drop (d.pair.twinDigests.length - 7) })

/-- The twin's digest of a block has not come within two system blocks (R527). -/
def digestLate (d : Dev) : Dev :=
  match d.pair.digests.find? (fun g => decide (256 * (g.block + 3) ≤ d.pos.sysLine + 1)) with
  | none => d
  | some g =>
    let d := setPair d { d.pair with digests := d.pair.digests.filter (fun k => decide (k.block > g.block)) }
    if compares d then disagree d else d

/-- The newest system block that every tracked station has committed; with none tracked, that the line number has left
behind. -/
def lastBlock (d : Dev) : Option Nat :=
  let ends := (List.range 8).filterMap (fun ss =>
    if tracked d.force ss then some (((trkStn d ss).last.map (· + 1)).getD 0) else none)
  let n := match ends with
    | [] => d.pos.sysLine + 1
    | e :: es => es.foldl Nat.min e
  if n < 256 then none else some (n / 256 - 1)

/-! ### The snapshot of a join -/

/-- One item of a JOIN frame: its kind, its index, and its fields, one to a word. R541 leaves the step data open; this
layout is the model's (DESIGN CHOICE, log 34). -/
def joinItem (step kind index : Nat) (xs : List Nat) : List Dword :=
  dpack [(60, 4, 7), (56, 4, step)] :: dpack [(56, 8, kind), (0, 56, index)] :: xs.map (fun x => BitVec.ofNat 64 x)

/-- Field `i` of an item. -/
def itemAt (ws : List Dword) (i : Nat) : Nat := (dwAt ws (2 + i)).toNat

/-- Option as a number and back: 0 for none. -/
def optNat (o : Option Nat) : Nat := (o.map (· + 1)).getD 0
def natOpt (n : Nat) : Option Nat := if n = 0 then none else some (n - 1)

/-- The counters that both parts keep alike: next sequence number, coil ID, patch slots, epoch (R539). -/
def counterItem (d : Dev) : List Nat :=
  [d.border.seq, (reg d (ra pgTrk 0x110)).toNat, d.pos.epoch, d.trk.opens, d.pos.sysLine]

/-- The position state a joining part takes (R539 step 2). -/
def positionItems (d : Dev) : List (List Dword) :=
  let enc := (List.range 8).map (fun c =>
    let e := ench d c
    joinItem 3 1 c [sf 64 e.count, sf 64 e.hwm, sf 64 e.pos, e.mark.count])
  let cmp := (List.range 24).map (fun u => joinItem 3 2 u [sf 64 ((cmpu d u).next / 2 ^ 32), sf 64 ((cmpu d u).next % 2 ^ 32),
    sf 64 ((cmpu d u).last / 2 ^ 32), sf 64 ((cmpu d u).last % 2 ^ 32)])
  let cam := (List.range 16).map (fun n => joinItem 3 3 n [(skp d n).nextLine])
  let pos := joinItem 3 4 0 [d.pos.sysLine, d.pos.refSeen.toNat, d.pos.epoch, d.pos.timeSteps]
  enc ++ cmp ++ cam ++ [pos, joinItem 3 5 0 (counterItem d)]

/-- The items of a segmentation context: its background columns, and thresholds, credit and block state (R539 step 4). -/
def segItems (d : Dev) (w x : Nat) : List (List Dword) :=
  let s := sgs d w x
  let k := 2 * w + x
  joinItem 4 11 k [thr d w x 0, thr d w x 1, thr d w x 2, rf d (segA w x 0x114) 23 0, rf d (segA w x 0x110) 31 30, s.ob,
      2 * s.learn + s.learnDone.toNat, s.nv, s.sdev, s.stex, s.cnt, s.owned, optNat s.block, 2 * optNat s.credBlock + s.en.toNat] ::
    s.cols.zipIdx.map (fun c => joinItem 4 10 (k * 2 ^ 20 + c.2)
      [c.1.bg, c.1.seeded.toNat, c.1.run, optNat c.1.flagAt, c.1.pin, c.1.frozen.toNat])

/-- The words of a coil as an item carries them. -/
def coilItem (c : Coil) : List Nat := (coilWords c).map (fun w => w.toNat) ++ [c.station, c.first, c.born]

/-- A coil of an item. -/
def coilFrom (ws : List Dword) : Coil :=
  let first := itemAt ws 9
  let c := coilOf ((ws.drop 2).take 8) (itemAt ws 8) first
  { c with first := first, born := itemAt ws 10 }

/-- The item of a handle (R539 step 4). -/
def handleItem (h : Nat) : HandleEnt → List (List Dword)
  | .free => []
  | .resident c => [joinItem 4 12 h (coilItem c ++ [0])]
  | .parked s c => [joinItem 4 12 h (coilItem c ++ [s + 1])]
  | .forward t ss r => [joinItem 4 13 h [t, ss, r]]
  | .closed q c => [joinItem 4 17 h (coilItem c ++ [q])]

/-- A stamp as the fields of an item. -/
def stampItem (s : Stamp) : List Nat :=
  [s.camLine, s.sysLine, s.encCh, sf 64 s.tick, s.frac, sf 64 s.web, s.time / 2 ^ 48, s.time % 2 ^ 48, s.epoch,
    s.short.toNat + 2 * s.long.toNat + 4 * s.gap.toNat + 8 * s.late.toNat + 16 * s.note.toNat, s.cycle, s.step, s.tstep, s.ver]

/-- A stamp of an item. -/
def stampFrom (ws : List Dword) : Stamp :=
  let g := itemAt ws
  { camLine := g 0, sysLine := g 1, encCh := g 2, tick := toSigned 64 (g 3), frac := g 4, web := toSigned 64 (g 5),
    time := g 6 * 2 ^ 48 + g 7, epoch := g 8, short := (g 9).testBit 0, long := (g 9).testBit 1, gap := (g 9).testBit 2,
    late := (g 9).testBit 3, note := (g 9).testBit 4, cycle := g 10, step := g 11, tstep := g 12, ver := g 13 }

/-- A station's place in the tracker as an item (R539 step 4). -/
def stationItem (ss : Nat) (t : TrkStn) : List Dword :=
  joinItem 4 18 ss [optNat t.last, t.on.toNat + 2 * t.conn8.toNat, t.close, t.col, t.len, t.base, t.floor]

/-- A summary of the seam journal as an item (R539 step 4). -/
def sumItem (right : Bool) (s : SeamSum) : List Dword :=
  joinItem 4 16 (2 * s.seq + right.toNat) (coilItem s.c ++ [s.line, s.coil, s.node * 2 + s.cutS.toNat])

/-- The snapshot that the active part takes at the end of block b_c − 1 (R539 step 4). -/
def snapshotItems (d : Dev) : List (List Dword) :=
  (liveContexts d).flatMap (fun c => segItems d c.1 c.2) ++
    d.trk.handles.flatMap (fun e => handleItem e.1 e.2) ++
    d.trk.front.map (fun e => joinItem 4 14 e.1 [e.2.line, e.2.refused.toNat, e.2.handle]) ++
    d.trk.stns.map (fun e => stationItem e.1 e.2) ++
    d.trk.ring.map (fun e => joinItem 4 15 e.1 (stampItem e.2)) ++
    d.trk.left.journal.map (sumItem false) ++ d.trk.right.journal.map (sumItem true) ++
    [joinItem 4 5 0 (counterItem d)]

/-- One item of position state takes effect (R539 step 2): the count is moved by what the sample was ahead of this part's
own count when it came, which the last field holds. -/
def takePosition (d : Dev) (ws : List Dword) : Dev :=
  let g := itemAt ws
  let i := dfld (dwAt ws 1) 55 0
  match dfld (dwAt ws 1) 63 56 with
  | 1 =>
    let e := ench d i
    let n := e.count + (toSigned 64 (g 0) - toSigned 64 (g 4))
    setEnc d i { e with count := n, hwm := max n (toSigned 64 (g 1)), pos := toSigned 64 (g 2), mark := { e.mark with count := g 3 } }
  | 2 =>
    let u := cmpu d i
    setCmp d i { u with next := toSigned 64 (g 0) * 2 ^ 32 + g 1, last := toSigned 64 (g 2) * 2 ^ 32 + g 3 }
  | 3 => setSkp d i { (skp d i) with nextLine := g 0 }
  | 4 => { d with pos := { d.pos with sysLine := g 0, refSeen := decide (g 1 = 1), epoch := g 2, timeSteps := g 3 } }
  | 5 => setReg { d with border := { d.border with seq := g 0 } } (ra pgTrk 0x110) (BitVec.ofNat 32 (g 1))
  | _ => d

/-- One item of the snapshot is put in place (R539 step 4). -/
def takeSnapshot (d : Dev) (ws : List Dword) : Dev :=
  let g := itemAt ws
  let i := dfld (dwAt ws 1) 55 0
  match dfld (dwAt ws 1) 63 56 with
  | 5 =>
    let d := { d with border := { d.border with seq := g 0 }, trk := { d.trk with opens := g 3 } }
    setReg d (ra pgTrk 0x110) (BitVec.ofNat 32 (g 1))
  | 10 =>
    let w := i / 2 ^ 21
    let x := i / 2 ^ 20 % 2
    let s := sgs d w x
    let c : BgCol := { bg := g 0, seeded := decide (g 1 = 1), run := g 2, flagAt := natOpt (g 3), pin := g 4, frozen := decide (g 5 = 1) }
    let k := i % 2 ^ 20
    let cols := s.cols ++ List.replicate (k + 1 - s.cols.length) {}
    setSgs d w x { s with cols := cols.set k c }
  | 11 =>
    let w := i / 2
    let x := i % 2
    let d := (List.range 3).foldl (fun d k => poke d (segA w x (0x148 + 0x10 * k)) 15 0 (g k)) d
    let d := poke (poke d (segA w x 0x114) 23 0 (g 3)) (segA w x 0x110) 31 30 (g 4)
    let s := sgs d w x
    setSgs d w x { s with
      ob := g 5, learn := g 6 / 2, learnDone := decide (g 6 % 2 = 1), nv := g 7, sdev := g 8, stex := g 9, cnt := g 10,
      owned := g 11, block := natOpt (g 12), credBlock := natOpt (g 13 / 2), en := decide (g 13 % 2 = 1), cols := [], pend := [],
      hist := [] }
  | 12 => hset d i (if g 11 = 0 then .resident (coilFrom ws) else .parked (g 11 - 1) (coilFrom ws))
  | 13 => hset d i (.forward (g 0) (g 1) (g 2))
  | 14 =>
    setTrk d { d.trk with front := tset d.trk.front i { line := g 0, refused := decide (g 1 = 1), handle := g 2 } }
  | 15 => setTrk d { d.trk with ring := tset d.trk.ring i (stampFrom ws) }
  | 16 =>
    let right := decide (i % 2 = 1)
    let s := sideOf d right
    let j : SeamSum := { seq := i / 2, cutS := decide (g 13 % 2 = 1), line := g 11, coil := g 12, node := g 13 / 2, ver := d.ver,
                         c := coilFrom ws }
    setSide d right { s with journal := s.journal ++ [j] }
  | 17 => hset d i (.closed (g 11) (coilFrom ws))
  | 18 =>
    setStn d i { (trkStn d i) with
      last := natOpt (g 0), on := decide (g 1 % 2 = 1), conn8 := decide (g 1 / 2 % 2 = 1), close := g 2, col := g 3, len := g 4,
      base := g 5, floor := g 6, lastVer := d.ver }
  | _ => d

/-- A digest of the block that has ended is formed and sent (R526). On the active part of a join, the end of block
b_c − 1 is also that of the snapshot (R539 step 4). -/
def digestSend (d : Dev) : Dev :=
  match lastBlock d with
  | none => d
  | some blk =>
    if !pairEn d || d.pair.digests.any (fun g => decide (blk ≤ g.block)) then d
    else
      let g := digestNow d blk
      let d := setPair d { d.pair with digests := (d.pair.digests ++ [g]).drop (d.pair.digests.length - 7), recs := [], xorC := 0 }
      let d := sendPair d (digestWords g)
      let d :=
        if pairActive d && decide (d.pair.joinFrom = some (blk + 1)) then
          let d := (snapshotItems d).foldl sendPair d
          setPair (sendPair d [dpack [(60, 4, 7), (56, 4, 5)]]) { d.pair with joinFrom := none }
        else d
      matchDigests d

/-- The records of lines before block b_c leave this part's own inputs: its output until then is discarded (R539). -/
def dropEarly (d : Dev) (n : Nat) : Dev :=
  let b := d.bin
  let late := fun (r : Rec) => decide (n ≤ r.w2.toNat)
  { d with bin := { b with
      notes := b.notes.filter late, markers := b.markers.filter late, gaps := b.gaps.filter (fun g => decide (n ≤ g.2)),
      coils := b.coils.filter (fun c => decide (n ≤ c.last)) } }

/-- The snapshot is in place: the buffered lines are segmented, and digests are compared from block b_c on (R539 steps
5 and 6). -/
def joinDone (d : Dev) : Dev :=
  match d.pair.joinFrom with
  | none => d
  | some bc =>
    let buf := d.pair.buf
    let d := poke (poke d (pairA 0x12C) 31 29 4) (pairA 0x12C) 19 0 0
    let d := setPair (dropEarly d (256 * bc)) { d.pair with buf := [], recs := [], xorC := 0, digests := [], matched := 0 }
    buf.foldl (fun d e => segLine d e.1 e.2.1 e.2.2) d

/-- The block from which a joining part counts (R539 steps 3 and 4). -/
def joinBlock (d : Dev) : Nat :=
  let lag := (liveContexts d).foldl (fun a c => Nat.max a (rf d (cx (pgGeom c.1) c.2 0x11C) 19 0)) 0
  d.pos.sysLine / 256 + 2 + (lag + 8 + 255) / 256

/-- The position items take effect together at a reference trigger (R539 step 2). -/
def positionEffect (d : Dev) : Dev :=
  if d.pair.posn.isEmpty then d
  else
    let ps := d.pair.posn
    poke (ps.foldl takePosition (setPair d { d.pair with posn := [] })) (pairA 0x12C) 31 29 2

/-! ### Failover -/

/-- The ROLE marker (R531). Its W5 is filled in as it is numbered. -/
def roleMark (d : Dev) (cause : Nat) (unsynced : Bool) (first serial : Nat) : Dev :=
  let r := markerRec d 4 0 first serial 0
  pushMarker d { r with w0 := r.w0 ||| dpack [(43, 1, unsynced.toNat), (40, 3, cause)] }

/-- An unconfirmed trigger is issued again as one late pulse (R53, R533): the slot it opened counts from now. -/
def reissue (d : Dev) (k : TrigMark) : Dev :=
  let n := k.nn
  match stationOf d.force n with
  | none => d
  | some ss =>
    let c := encOf d.force ss
    let t := (ench d c).count
    let p := skp d n
    let sw := inForce d (ra (pgSkein n) 0x110)
    let dl := (inForce d (ra (pgSkein n) 0x114)).toNat
    let redo := fun (s : Slot) =>
      if s.stamp.camLine = k.camLine ∧ !s.started then
        { s with
          winLo := d.cycle + fld sw 15 0, winHi := d.cycle + fld sw 31 16, deadline := d.cycle + dl, trigAt := d.cycle,
          stamp := { s.stamp with
            tick := t, frac := 0, web := webPos t 0 (pitchOf d.force c) (stnOffset d.force ss + camOffset d.force n),
            time := lineTime d, cycle := d.cycle, late := true } }
      else s
    let d := setSkp d n { p with slots := p.slots.map redo }
    drivePulse (count d (pairA 0x158)) n (some k.camLine)

/-- A standby part takes over on one edge (R532 to R534). -/
def takeOver (d : Dev) (m : Mem) : Dev :=
  let off := decide (pairState d = 6)
  let late := d.pair.trigs.filter (fun k => !k.seen && decide (d.cycle ≤ k.edge + 200))
  let ahead := decide (0 < (d.pair.twinFormed + seqMod - d.border.seq) % seqMod) &&
    decide ((d.pair.twinFormed + seqMod - d.border.seq) % seqMod < seqMod / 2)
  let d := if off && ahead then { d with border := { d.border with seq := d.pair.twinFormed } } else d
  let d := if off then flushAll m d else d
  let d := setPair (pairTo d 1) { d.pair with actOut := true, protect := false, swap := none, trigs := [] }
  let d := evt (count d (pairA 0x14C)) pgPair 0
  let d := late.foldl reissue d
  let first := if d.pos.refSeen then d.pos.sysLine + 1 else d.pos.sysLine
  freePorts (roleMark d 2 off first (mySerial d))

/-- PAIR_OK_IN falls (R517, R532, R534, R535). -/
def okFalls (d : Dev) (m : Mem) : Dev :=
  let d := setPair d { d.pair with okIn := false, actIn := false }
  if !pairEn d then d
  else
    match pairState d with
    | 3 => takeOver d m
    | 6 => takeOver d m
    | 4 => evt (pairTo (setPair d { d.pair with protect := false, swap := none }) 1) pgPair 8
    | 5 => evt (pairTo (setPair d { d.pair with joinFrom := none }) 1) pgPair 8
    | _ => d

/-! ### Planned swaps -/

/-- A swap is requested at a line (R536, R537, R644); `cause` is that of the ROLE marker. -/
def requestSwap (d : Dev) (line cause : Nat) : Dev :=
  if pairEn d && decide (pairState d = 4) && decide (d.pos.sysLine + 64 ≤ line) then
    let id := (d.pair.swapId + 1) % 2 ^ 32
    sendPair (setPair d { d.pair with swap := some (line, cause, id), swapId := id })
      [dpack [(60, 4, 8), (32, 3, cause), (0, 32, id)], dpack [(0, 64, line)]]
  else pokeBit d (pairA 0x104) 22 true

/-- A write of PAIR_CTRL.SWAP (R536). -/
def swapWrite (d : Dev) : Dev := requestSwap d (reg64 d (pairA 0x10C)) 1

/-- The at-risk condition asks for a swap where AUTO_SWAP is set (R537). -/
def riskSwap (was d : Dev) : Dev :=
  let a := ra pgTherm 0x108
  if rb d a 29 && !rb was a 29 && rb d (pairA 0x100) 29 && pairEn d && decide (pairState d = 4) then
    requestSwap d (d.pos.sysLine + 64) 3
  else d

/-- A SWAP frame tells the standby part of the request (R541). -/
def takeSwap (d : Dev) (ws : List Dword) : Dev :=
  if pairEn d && decide (pairState d = 3) then
    let d := pairHeard d
    setPair d { d.pair with swap := some ((dwAt ws 1).toNat, dfld (dwAt ws 0) 34 32, dfld (dwAt ws 0) 31 0),
                            swapId := dfld (dwAt ws 0) 31 0 }
  else d

/-- The serial number of the twin (R542). -/
def twinSerial (d : Dev) : Nat := reg64 d (ra (pgFabPort 4) 0x108)

/-- The reference trigger of the swap's line has come: the parts exchange roles (R531, R536). -/
def swapEffect (d : Dev) : Dev :=
  match d.pair.swap with
  | none => d
  | some (line, cause, _) =>
    if d.pos.sysLine % 256 ≠ 0 ∨ d.pos.sysLine < line then d
    else
      let mark := fun (d : Dev) serial => evt (count (roleMark d cause false d.pos.sysLine serial) (pairA 0x150)) pgPair 1
      let d := setPair d { d.pair with swap := none, trigs := [] }
      match pairState d with
      | 4 =>
        let d := sendReport d
        let d := pairTo (setPair d { d.pair with actOut := false, actIn := true, mirAck := 0, armSent := [], armAcked := [] }) 3
        mark (holdPorts d) (twinSerial d)
      | 3 =>
        let d := pairTo (setPair d { d.pair with actOut := true, actIn := false, armAcked := armedPages d }) 4
        mark (freePorts d) (mySerial d)
      | _ => d

/-! ### Joining -/

/-- The twin's Pairing protocol may work with this part's (R538): its major lies from PAIR_MIN to this image's own, or
this part's does in the twin's. -/
def pairCompatible (d : Dev) (major least : Nat) : Bool :=
  (decide (d.img.pairMin ≤ major) && decide (major ≤ d.img.pair)) || (decide (least ≤ d.img.pair) && decide (d.img.pair ≤ major))

/-- A write of PAIR_CTRL.REJOIN on a standby part (R542). -/
def rejoin (d : Dev) : Dev := if standby d then startJoin d else d

/-- A TIME frame on the Pairing link (R525, R541): a SYNC measures the offset from the twin; the exchange of delays is that
of any port. -/
def takePairTime (d : Dev) (ws : List Dword) (ingress : WireTime) : Dev :=
  if !pairEn d then d
  else
    let d := pairHeard d
    match timeKind d 4 ws with
    | 0 =>
      if standby d then
        let off := wire16 ingress - (wordTime (dwAt ws 1) (dwAt ws 2) + toSigned 64 (dwAt ws 3).toNat + (fbp d 4).delay)
        let d := { d with node := { d.node with syncOff := some off } }
        pokeBit d (pairA 0x104) 24 (decide (off.natAbs > rf d (pairA 0x118) 15 0 * 65536))
      else d
    | 1 => pdelayAnswer d 4 ws ingress
    | 2 => pdelayTake d 4 ws ingress
    | _ => d

/-- A SYNC of the active part on the Pairing link (R525). -/
def pairSync (d : Dev) : Dev :=
  if pairActive d then
    let q := (d.node.syncSeq + 1) % 65536
    let d := { d with node := { d.node with syncSeq := q } }
    sendDelay d 4 (timeW1 d 4 0 q :: (timeWords (timeStamp d) ++ [0]))
  else d

end Sys2Proof.Machine
end

