-- ==== Sys2Proof/Machine/HostPages.lean ====
section
/-!
DEFINITION. What a host write does on each page beside storing the word (the register tables of the block chapters).
-/

namespace Sys2Proof.Machine

/-! ### Encoders and camera lanes -/

/-- ENC00_ALIGN (R127, R114). -/
def alignWrite (d : Dev) (a : Nat) (v : Word) : Dev :=
  let d := storeReg d a v
  if bitOf v 31 then alignAll d else d

/-- The lane whose scan register lies at page offset `o` of skein page or Limileri port `p`. -/
def laneOf (pg o : Nat) : Option LaneId :=
  let k := (o - 0x200) / 0x20
  if o < 0x210 ∨ (o - 0x210) % 0x20 ≠ 0 then none
  else if h : 0x20 ≤ pg ∧ pg < 0x30 ∧ k < 6 then some (.skein ⟨pg - 0x20, by omega⟩ ⟨k, h.2.2⟩)
  else if h : 0x231 ≤ pg ∧ pg < 0x236 ∧ k < 4 then some (.fabric ⟨pg - 0x231, by omega⟩ ⟨k, h.2.2⟩)
  else none

/-- A write of a lane's SCAN register: START, and the clearing of SCAN_FAIL (R168). -/
def scanWrite (d : Dev) (a : Nat) (l : LaneId) (v : Word) : Dev :=
  let d := if bitOf v 30 then poke d a 15 0 0 else d
  if bitOf v 31 then scanStart d l else d

/-! ### Tracker, Border, host interface -/

/-- A write of the TRK page (R318, R321). -/
def trkWrite (d : Dev) (m : Mem) (o : Nat) (v : Word) : Dev :=
  let a := ra pgTrk o
  if o = 0x100 then
    let d := storeReg d a v
    if bitOf v 30 then flushAll m d else d
  else if o = 0x164 then
    let d := if bitOf v 31 then rearm d false else d
    if bitOf v 30 then rearm d true else d
  else if o = 0x180 then
    if bitOf v 31 then peekCoil d (fld v 20 0) else storeReg d a v
  else storeReg d a v

/-- The largest MAX_RECS of an Ethernet destination (R365, DESIGN CHOICE, log 41). -/
def recsLimit (dd : Nat) : Nat := if Config.jumboPort (dd - 1) then 139 else 22

/-- A write of the BORDER page (R334, R343, R346, R365, R368). -/
def borderWrite (d : Dev) (o : Nat) (v : Word) : Dev :=
  let a := ra pgBorder o
  if o = 0x100 then
    let d := storeReg d a v
    if bitOf v 31 then borderBegin d else d
  else if o = 0x110 then setReg d a (wpack [(0, 10, Nat.max 1 (fld v 9 0))])
  else if o = 0x114 then setReg d a v
  else if o = 0x118 then verdict (setReg d a v) v
  else if 0x200 ≤ o ∧ o < 0x300 ∧ o % 0x40 = 0 then
    let dd := (o - 0x200) / 0x40
    let was := rb d a 31
    let d := storeReg d a v
    if bitOf v 31 && !was then destEnable d dd else d
  else if (o = 0x268 ∨ o = 0x2A8) ∧ recsLimit ((o - 0x200) / 0x40) < fld v 15 8 then d
  else storeReg d a v

/-- The range of LOG2 of a ring (R354). -/
def ringRange (rr : Nat) : Nat × Nat := [(12, 24), (2, 10), (1, 15), (6, 12), (9, 16)].getD rr (0, 0)

/-- A ring write is refused (R354). -/
def ringRefuse (d : Dev) (rr : Nat) : Dev := pokeBit d (ringA rr 28) 30 true

/-- A write of the submission ring's PROD (R354). -/
def doorbellWrite (d : Dev) (v : Word) : Dev :=
  if ringLen d 3 < (v.toNat + 2 ^ 32 - ringCons d 3) % 2 ^ 32 then evt (pokeBit d (ringA 3 28) 28 true) pgHif 7
  else ringFull (setReg d (ringA 3 12) v) 3

/-- A write of CONS of ring `rr` (R354). -/
def consWrite (d : Dev) (rr : Nat) (v : Word) : Dev :=
  if rr = 3 then d
  else if ringLen d rr < (ringProd d rr + 2 ^ 32 - v.toNat) % 2 ^ 32 then ringRefuse d rr
  else ringFull (setReg d (ringA rr 16) v) rr

/-- A write of the HIF page (R354, R370). -/
def hifWrite (d : Dev) (o : Nat) (v : Word) : Dev :=
  let a := ra pgHif o
  let rr := (o - 0x100) / 0x40
  let k := o % 0x40
  if o < 0x100 ∨ 0x240 ≤ o then storeReg d a v
  else if k = 0 ∨ k = 4 then (if ringOn d rr then ringRefuse d rr else storeReg d a v)
  else if k = 8 then
    if ringOn d rr || (bitOf v 31 && decide (fld v 4 0 < (ringRange rr).1 ∨ (ringRange rr).2 < fld v 4 0)) then ringRefuse d rr
    else ringFull (storeReg d a v) rr
  else if k = 12 then (if rr = 3 then doorbellWrite d v else d)
  else if k = 16 then consWrite d rr v
  else storeReg d a v

/-! ### Memory controllers -/

/-- The write changes a field outside `free` of the register at `a`. -/
def changes (d : Dev) (a : Nat) (free v : Word) : Bool :=
  match regRow a with
  | none => false
  | some (r, _) => decide (((reg d a ^^^ v) &&& r.rw &&& ~~~ free) ≠ 0)

/-- A write of LPX_PASR (R428, R429). -/
def pasrWrite (d : Dev) (m : Mem) (v : Word) : Dev × Mem :=
  let a := ra pgLpx 0x158
  let d := poke d a 7 0 (fld v 7 0)
  if bitOf v 8 = rb d a 8 then (d, m) else srRequest d m (bitOf v 8)

/-- A write of the LPX page (R409, R411, R412, R415, R424, R428, R431, R438). -/
def lpxWrite (d : Dev) (m : Mem) (o : Nat) (v : Word) : Dev × Mem :=
  let a := ra pgLpx o
  let stat := ra pgLpx 0x108
  let on := rb d (ra pgLpx 0x100) 31
  if o = 0x100 then
    (if on && changes d a 0x80000000 v then pokeBit d stat 31 true else storeReg d a v, m)
  else if o = 0x104 then
    (pointChange (if bitOf v 30 then pokeBit d a 30 false else d) (fld v 1 0), m)
  else if 0x110 ≤ o ∧ o < 0x134 then
    (if on || decide (2 ^ lpxRowBits d ≤ fld v 16 0) then pokeBit d stat 30 true else storeReg d a v, m)
  else if o = 0x154 then (storeReg d a (putFld v 3 0 (Nat.min 8 (fld v 3 0))), m)
  else if o = 0x158 then pasrWrite d m v
  else if o = 0x15C then (let d := storeReg d a v; if bitOf v 31 then pokeBit d a 31 true else d, m)
  else if 0x200 ≤ o ∧ o < 0x260 ∧ o % 0x20 < 0x10 then
    (if rb d (ra pgLpx 0x104) 31 || decide ((o - 0x200) / 0x20 = lpxPoint d) then pokeBit d stat 28 true else storeReg d a v, m)
  else (storeReg d a v, m)

/-- A write of the QDR page (R441). -/
def qdrWrite (d : Dev) (o : Nat) (v : Word) : Dev :=
  let a := ra pgQdr o
  let d := storeReg d a v
  if o = 0x100 ∧ bitOf v 29 then pokeBit d a 29 true else d

/-! ### Fabric -/

/-- A write of the FAB page is refused (R489). -/
def fabRefuse (d : Dev) : Dev := pokeBit d (ra pgFab 0x104) 24 true

/-- FAB_CFG.EN is set: the node takes its ID, or waits for one (R465). -/
def fabJoin (d : Dev) : Dev :=
  if rb d (ra pgFab 0x100) 30 then
    let d := pokeBit d (ra pgFab 0x104) 30 true
    { d with node := { d.node with newAt := d.cycle, leader := false } }
  else takeId d (rf d (ra pgFab 0x100) 21 16)

/-- FAB_CFG.EN is cleared: the node leaves the fabric, and what is armed for an epoch is disarmed (R663). -/
def fabLeave (d : Dev) : Dev :=
  disarmEpoch (poke { d with node := { d.node with leader := false } } (ra pgFab 0x104) 31 30 0)

/-- A write of FAB_CFG (R480, R489). -/
def fabCfgWrite (d : Dev) (v : Word) : Dev :=
  let a := ra pgFab 0x100
  let on := rb d a 31
  if (on && changes d a 0x80000000 v) || decide (fld v 27 26 = 3) ||
      (bitOf v 29 && !rb d a 29 && fb d (ra pgPos 0x100) 31) then fabRefuse d
  else
    let d := storeReg d a v
    if bitOf v 31 && !on then fabJoin d else if on && !bitOf v 31 then fabLeave d else d

/-- A route entry that is refused (R489). -/
def badRoute (v : Word) : Bool :=
  (List.range 8).any (fun j => decide (6 ≤ fld v (4 * j + 3) (4 * j) ∧ fld v (4 * j + 3) (4 * j) ≤ 0xE))

/-- A write of FAB_RELAYr_CFG: a relay put in use publishes from now on, or listens from now on (R477, R478, R489). -/
def relayWrite (d : Dev) (r : Nat) (v : Word) : Dev :=
  if 6 ≤ fld v 23 21 then fabRefuse d
  else
    let was := rb d (relayCfgA r) 31
    let d := storeReg d (relayCfgA r) v
    if bitOf v 31 && !was then
      { d with node := { d.node with relays := tset d.node.relays r { nextPub := d.cycle, lastAt := d.cycle } } }
    else d

/-- A write of the FAB page (R470, R480, R484, R489). -/
def fabWrite (d : Dev) (m : Mem) (o : Nat) (v : Word) : Dev :=
  let a := ra pgFab o
  if o = 0x100 then fabCfgWrite d v
  else if o = 0x13C then
    let d := storeReg d a v
    if bitOf v 31 then epochGo d m else d
  else if o = 0x158 then (if bitOf v 31 && rb d (ra pgFab 0x100) 28 then switchTables d else d)
  else if o = 0x160 ∨ o = 0x164 then relayWrite d ((o - 0x160) / 4) v
  else if 0x200 ≤ o ∧ o < 0x2C0 ∧ badRoute v then fabRefuse d
  else storeReg d a v

/-! ### Time and Pairing -/

/-- A write of TIME_SET_CTRL: with both actions the SET is applied (R498, R499, R511). -/
def setCtrlWrite (d : Dev) (v : Word) : Dev :=
  if bitOf v 31 then timeSet d (bitOf v 29) else if bitOf v 30 then timeStepGo d (bitOf v 29) else d

/-- A write of the TIME or PTP page (R494, R495, R498, R696). -/
def timeWrite (d : Dev) (a : Nat) (v : Word) : Dev :=
  if timeRefused a v.toNat then timeRefuse d a
  else if a = timeA 0x118 then timeLimit (storeReg d a v)
  else if a = timeA 0x11C then slewWrite d (fld v 21 0)
  else if a = timeA 0x120 then { d with time := { d.time with adjLo := v.toNat } }
  else if a = timeA 0x124 then timeAdjWrite d v.toNat
  else if a = timeA 0x138 then setCtrlWrite d v
  else storeReg d a v

/-- A part leaves its Pairing (R515, R517). -/
def pairLeave (d : Dev) : Dev :=
  let held := standby d
  let d := pairTo (setPair d { okIn := d.pair.okIn, actIn := d.pair.actIn }) 0
  if held then freePorts d else d

/-- A write of PAIR_CFG: with EN 1 only EN is written (R518, R542). -/
def pairCfgWrite (d : Dev) (b : Boot) (v : Word) : Dev :=
  let a := pairA 0x100
  let on := rb d a 31
  let d := if on then pokeBit d a 31 (bitOf v 31) else storeReg d a v
  if bitOf v 31 && !on then pairRole d b else if on && !bitOf v 31 then pairLeave d else d

/-- A write of PAIR_CTRL: a swap, a new join, or both (R536, R542). -/
def pairCtrl (d : Dev) (value : Word) : Dev :=
  let d := if bitOf value 31 then swapWrite d else d
  if bitOf value 30 then rejoin d else d

/-- A write of the PAIR page (R536, R542). -/
def pairWrite (d : Dev) (b : Boot) (o : Nat) (v : Word) : Dev :=
  if o = 0x100 then pairCfgWrite d b v
  else if o = 0x108 then pairCtrl d v
  else storeReg d (pairA o) v

/-! ### Wicker, interrupts, power -/

/-- A write of the WKR page (R546, R548, R555, R558). -/
def wkrWrite (d : Dev) (o : Nat) (v : Word) : Dev :=
  if 0x180 ≤ o ∧ o < 0x300 then pselWrite d o v.toNat
  else if isRouting o then routingWrite d o v
  else if 0x900 ≤ o ∧ o < 0xA80 then cselWrite d o v
  else storeReg d (wkrA o) v

/-- A write of the INTC page (R565, R566, R569, R570, R579). -/
def intcWrite (d : Dev) (o : Nat) (v : Word) : Dev :=
  if 0x300 ≤ o ∧ o < 0xB00 then srcCfgWrite d ((o - 0x300) / 4) v
  else if o = 0x1A4 then swiSet d v
  else if o = 0x1A8 then swiClear d v
  else if 0x100 ≤ o ∧ o < 0x1A0 ∧ o % 0x20 = 0x0C then completeSrc d ((o - 0x100) / 0x20) (fld v 8 0)
  else storeReg d (intcA o) v

/-- A write of PWR_CTRL.REQ (R572, R574, R577). -/
def reqWrite (d : Dev) (m : Mem) (b : Boot) (req : Nat) : Dev :=
  match req with
  | 0 => reqRun d
  | 1 => reqIdle d
  | 2 => reqDeepSleep d m b
  | _ => reqBad d

/-! ### Health -/

/-- A field cut to a ceiling. -/
def capFld (v : Word) (hi lo cap : Nat) : Word := putFld v hi lo (Nat.min cap (fld v hi lo))

/-- A write of a power limit (R592). -/
def plimWrite (d : Dev) (o : Nat) (v : Word) : Dev :=
  let cap := if o < 0x140 then 640 else if o = 0x140 then 1120 else 3600
  let d := storeReg d (thermA o) (capFld v 15 0 cap)
  if cap < fld v 15 0 then pokeBit d (thermA 0x128) 2 true else d

/-- A write of the THERM page (R587, R588, R592, R594). -/
def thermWrite (d : Dev) (m : Mem) (o : Nat) (v : Word) : Dev :=
  if o = 0x100 then storeReg d (thermA o) (capFld (capFld v 15 8 105) 7 0 100)
  else if o = 0x104 then (if bitOf v 31 then shutdown d m 0x04 else d)
  else if 0x130 ≤ o ∧ o ≤ 0x144 then plimWrite d o v
  else storeReg d (thermA o) v

/-- A write of the MON page (R606, R620). -/
def monWrite (d : Dev) (o : Nat) (v : Word) : Dev :=
  let a := ra pgMon o
  if o = 0x300 then monCopy (storeReg d a v) (fld v 3 0)
  else if 0x100 ≤ o ∧ o < 0x300 then
    let mm := (o - 0x100) / 0x20
    if o % 0x20 = 0 then (if monSrcOk (fld v 23 16) then storeReg d a v else d)
    else if o % 0x20 = 8 then monClear d mm
    else storeReg d a v
  else storeReg d a v

/-- A write of the ERRC page (R611, R613, R622). -/
def errcWrite (d : Dev) (o : Nat) (v : Word) : Dev :=
  if o = 0x104 then errcDone d (fld v 15 0)
  else if o = slotFirst ∨ o = slotFatal then clearSlot d o
  else storeReg d (errcA o) v

/-! ### Every page but UPD -/

/-- A write of a word at page offset `o` beyond the header, on every page but UPD. -/
def pageWrite (d : Dev) (m : Mem) (b : Boot) (pg o : Nat) (v : Word) : Dev × Mem :=
  let a := ra pg o
  if isBound a then (boundWrite d a v, m)
  else if pg = pgDev then (if o = 0x104 then (if bitOf v 31 then commitNow d m b else d) else storeReg d a v, m)
  else if pg = pgEnc 0 ∧ o = 0x180 then (alignWrite d a v, m)
  else if (laneOf pg o).isSome then
    (match laneOf pg o with
      | some l => scanWrite d a l v
      | none => d, m)
  else if 0x231 ≤ pg ∧ pg < 0x236 ∧ o = 0x100 then (linkEnable d (pg - 0x231) v, m)
  else if pg = pgTrk then (trkWrite d m o v, m)
  else if pg = pgBorder then (borderWrite d o v, m)
  else if pg = pgHif then (hifWrite d o v, m)
  else if pg = pgHist then (histStat (storeReg d a v), m)
  else if pg = pgLpx then lpxWrite d m o v
  else if pg = pgQdr then (qdrWrite d o v, m)
  else if pg = pgFab then (fabWrite d m o v, m)
  else if pg = pgTime ∨ pg = pgPtp then (timeWrite d a v, m)
  else if pg = pgPair then (pairWrite d b o v, m)
  else if pg = pgWkr then (wkrWrite d o v, m)
  else if pg = pgIntc then (intcWrite d o v, m)
  else if pg = pgPwr ∧ o = 0x100 then (reqWrite d m b (fld v 1 0), m)
  else if pg = pgTherm then (thermWrite d m o v, m)
  else if pg = pgCal ∧ o = 0x104 then (calGo d (fld v 4 0), m)
  else if pg = pgMon then (monWrite d o v, m)
  else if pg = pgErrc then (errcWrite d o v, m)
  else if pg = pgSnap ∧ o = 0x100 then (if bitOf v 31 then snapTrigger d b 1 else d, m)
  else (storeReg d a v, m)

/-- A write of an aligned word of a mapped page other than UPD. -/
def writeWord (d : Dev) (m : Mem) (b : Boot) (a : Nat) (v : Word) : Dev × Mem :=
  if a % 4096 < 0x100 then (headerWrite d m b (a / 4096) (a % 4096) v, m) else pageWrite d m b (a / 4096) (a % 4096) v

end Sys2Proof.Machine
end

