-- ==== Sys2Proof/Machine/HostBar.lean ====
section
/-!
DEFINITION. Writes of the host through the windows of BAR2 (R186, R304, R435, R638, R666).
-/

namespace Sys2Proof.Machine

/-- The numbers of the values in force that lines of context `x` of wale `w` on the part were stamped under. -/
def liveVers (d : Dev) (w x : Nat) : List Nat :=
  let s := wst d w x
  let port := match portOfCtx d.force w x with
    | none => []
    | some n => (skp d n).slots.map (fun t => t.stamp.ver) ++ (skp d n).ready.map (fun t => t.stamp.ver)
  port ++ s.lines.map (fun l => l.stamp.ver) ++ s.stag.map (fun l => l.stamp.ver) ++ s.window.map (fun l => l.stamp.ver)

/-- Context `x` of wale `w` is using bank `k`: it serves a port, and the bank is the one in force for it or that of a
line still in the front, colour and geometry rands (R186). -/
def bankUsed (d : Dev) (w x k : Nat) : Bool :=
  (portOfCtx d.force w x).isSome && (decide (bankOf d.force w x = k) ||
    (liveVers d w x).any (fun v => decide (bankOf (forceOf d v) w x = k)))

/-- The events of a byte that the tables of BAR2 refuse at offset `o`, as page and bit: TBL_WR_REFUSED of each context
using the bank it lies in (R186), or of the tracker (R304). -/
def tblRefused (d : Dev) (o : Nat) : List (Nat × Nat) :=
  match barWindow o with
  | none => []
  | some w =>
    let k := o % 0x800000
    if w < 16 ∧ k < 0x400000 then
      ((List.range 2).filter (fun c => bankUsed d w c (k / 0x200000))).map (fun c => (pgFront w, 8 * c + 4))
    else if w = 16 ∧ 0xE000000 ≤ o ∧ o < 0xE010000 then
      let t := (o - 0xE000000) / 0x1000
      if (ff d (ra pgTrk 0x170) 7 0).testBit (t / 2) == (t % 2 == 1) then [(pgTrk, 6)] else []
    else []

/-- A byte written to the window of wale `w`; above the banks it is discarded (R666). -/
def walePut (d : Dev) (m : Mem) (w o : Nat) (x : Byte) : Dev × Mem :=
  if 0x400000 ≤ o then (d, m) else (d, { m with tbl := tput zeroByte m.tbl (0x800000 * w + o) x })

/-- A byte written to the QDR window: only the classification area takes it (R435). A written granule is readable
again (R436). -/
def qdrPut (d : Dev) (m : Mem) (o : Nat) (x : Byte) : Dev × Mem :=
  if o < 0x6000000 ∨ 0x6010000 ≤ o then (d, m)
  else
    ({ d with qdrBad := d.qdrBad.filter (fun g => decide (g ≠ o / 64)) },
      { m with qdr := tput zeroByte m.qdr (o - 0x6000000) x })

/-- A byte written through the LPDDR5X aperture; beyond the fitted capacity it is discarded (R666). -/
def lpxPut (d : Dev) (m : Mem) (a : Nat) (x : Byte) : Dev × Mem :=
  if a < lpxSize d then (touchLpx d a 1, { m with lpx := tput (lpxDef m) m.lpx a x }) else (d, m)

/-- A byte written to BAR2; one that a table in use refuses, and one that no window takes, changes nothing. -/
def barPut (d : Dev) (m : Mem) (o : Nat) (x : Byte) : Dev × Mem :=
  match barWindow o with
  | none => (d, m)
  | some w =>
    if !(tblRefused d o).isEmpty then (d, m)
    else if w < 16 then walePut d m w (o % 0x800000) x
    else if w = 16 then qdrPut d m (o - 0x8000000) x
    else if w = 17 then lpxPut d m (aperture d (o - 0x10000000)) x
    else (d, { m with win := tput zeroByte m.win (o - 0x30000000) x })

/-- The bytes of one write to consecutive offsets of BAR2. -/
def barPuts : List Byte → Nat → Dev × Mem → Dev × Mem
  | [], _, r => r
  | x :: xs, o, r => barPuts xs (o + 1) (barPut r.1 r.2 o x)

/-- One write through BAR2, with the events of what was refused of it. -/
def barWrite (d : Dev) (m : Mem) (o : Nat) (bs : List Byte) : Dev × Mem :=
  let es := ((List.range bs.length).flatMap (fun i => tblRefused d (o + i))).eraseDups
  let r := barPuts bs o (d, m)
  (es.foldl (fun d e => evt d e.1 e.2) r.1, r.2)

/-- An access refused under R667 is noted on the DEV page. -/
def badAccess (d : Dev) (write bar2 : Bool) (o : Nat) : Dev :=
  count (setReg d (ra pgDev 0x10C) (wpack [(31, 1, write.toNat), (30, 1, bar2.toNat), (0, 30, o)])) (ra pgDev 0x110)

/-- The ranks are in self-refresh, and requests of LPDDR5X wait (R428). -/
def lpxWaits (d : Dev) : Bool := rb d (ra (pgLpxCh 0) 0x100) 27

end Sys2Proof.Machine
end

