-- ==== Sys2Proof/Machine/Crypto.lean ====
section
/-!
DEFINITION. SHA-384 and the verification of an ECDSA signature over P-384, as the check of a Benath image uses
them (R633). The spec names the two algorithms; what they compute is taken from FIPS 180-4 and FIPS 186-4 (PRESUMED, log 45).
-/

namespace Sys2Proof.Machine

/-! ### SHA-384 -/

/-- The first 80 primes: below 21², a number is prime when no smaller number below 21 divides it. -/
def primes80 : List Nat :=
  ((List.range 410).filter (fun p => decide (2 ≤ p) &&
    (List.range 21).all (fun q => decide (q < 2) || decide (p ≤ q) || p % q != 0))).take 80

/-- Integer cube root by `n` halving steps of the bracket [lo, hi). -/
def icbrtLoop (x : Nat) : Nat → Nat → Nat → Nat
  | 0, lo, _ => lo
  | n + 1, lo, hi =>
    let mid := (lo + hi) / 2
    if mid * mid * mid ≤ x then icbrtLoop x n mid hi else icbrtLoop x n lo mid

/-- Round constants: fractions of the cube roots of the first 80 primes. -/
def shaK : List Dword := primes80.map (fun p => BitVec.ofNat 64 (icbrtLoop (p * 2 ^ 192) 70 0 (2 ^ 68)))

/-- Initial hash value: fractions of the square roots of the ninth to the sixteenth prime. -/
def shaInit : List Dword := ((primes80.drop 8).take 8).map (fun p => BitVec.ofNat 64 (isqrtLoop 70 0 (2 ^ 68) (p * 2 ^ 128)))

/-- The hash value or the working variables a to h. -/
structure ShaVars where
  a : Dword
  b : Dword
  c : Dword
  d : Dword
  e : Dword
  f : Dword
  g : Dword
  h : Dword
  deriving DecidableEq, Repr

/-- One round with its constant and schedule word. -/
def shaRound (v : ShaVars) (kw : Dword × Dword) : ShaVars :=
  let s1 := v.e.rotateRight 14 ^^^ v.e.rotateRight 18 ^^^ v.e.rotateRight 41
  let ch := (v.e &&& v.f) ^^^ (~~~ v.e &&& v.g)
  let t1 := v.h + s1 + ch + kw.1 + kw.2
  let s0 := v.a.rotateRight 28 ^^^ v.a.rotateRight 34 ^^^ v.a.rotateRight 39
  let maj := (v.a &&& v.b) ^^^ (v.a &&& v.c) ^^^ (v.b &&& v.c)
  { a := t1 + s0 + maj, b := v.a, c := v.b, d := v.c, e := v.d + t1, f := v.e, g := v.f, h := v.g }

/-- The message schedule: `n` words more, the newest first in `ws`, of which the sixteen last matter. -/
def shaSchedule : Nat → List Dword → List Dword
  | 0, ws => ws.reverse
  | n + 1, ws =>
    let w2 := ws.getD 1 0
    let w15 := ws.getD 14 0
    let s1 := w2.rotateRight 19 ^^^ w2.rotateRight 61 ^^^ (w2 >>> 6)
    let s0 := w15.rotateRight 1 ^^^ w15.rotateRight 8 ^^^ (w15 >>> 7)
    shaSchedule n ((s1 + ws.getD 6 0 + s0 + ws.getD 15 0) :: ws)

/-- One block of sixteen words. -/
def shaBlock (v : ShaVars) (block : List Dword) : ShaVars :=
  let r := (shaK.zip (shaSchedule 64 block.reverse)).foldl shaRound v
  { a := v.a + r.a, b := v.b + r.b, c := v.c + r.c, d := v.d + r.d, e := v.e + r.e, f := v.f + r.f, g := v.g + r.g,
    h := v.h + r.h }

/-- A message padded to whole blocks of 128 bytes. -/
def shaPad (bs : List Byte) : List Byte :=
  bs ++ 0x80 :: List.replicate ((239 - bs.length % 128) % 128) 0 ++ beBytes 16 (8 * bs.length)

/-- The blocks of a padded message, one after the other. -/
def shaBlocks : Nat → List Byte → ShaVars → ShaVars
  | 0, _, v => v
  | n + 1, bs, v =>
    shaBlocks n (bs.drop 128) (shaBlock v ((List.range 16).map (fun i => BitVec.ofNat 64 (ofBeBytes ((bs.drop (8 * i)).take 8)))))

/-- SHA-384 as a number of 384 bits. -/
def sha384 (bs : List Byte) : Nat :=
  let p := shaPad bs
  let i := fun k => shaInit.getD k 0
  let v := shaBlocks (p.length / 128) p { a := i 0, b := i 1, c := i 2, d := i 3, e := i 4, f := i 5, g := i 6, h := i 7 }
  [v.a, v.b, v.c, v.d, v.e, v.f].foldl (fun acc (w : Dword) => acc * 2 ^ 64 + w.toNat) 0

/-! ### P-384 -/

/-- The field of the curve. -/
def curveP : Nat := 2 ^ 384 - 2 ^ 128 - 2 ^ 96 + 2 ^ 32 - 1

/-- The order of the base point. -/
def curveN : Nat := 0xFFFFFFFFFFFFFFFFFFFFFFFFFFFFFFFFFFFFFFFFFFFFFFFFC7634D81F4372DDF581A0DB248B0A77AECEC196ACCC52973

/-- The curve is y² = x³ − 3x + b. -/
def curveB : Nat := 0xB3312FA7E23EE7E4988E056BE3F82D19181D9C6EFE8141120314088F5013875AC656398D8A2ED19D2A85C8EDD3EC2AEF

/-- The base point. -/
def curveG : Nat × Nat :=
  (0xAA87CA22BE8B05378EB1C71EF320AD746E1D3B628BA79B9859F741E082542A385502F25DBF55296C3A545E3872760AB7,
   0x3617DE4A96262C6F5D9E98BF9292DC29F8F41DBD289A147CE9DA3113B5F0B8C00A60B1CE1D7E819D7A431D7C90EA0E5F)

/-- `a ^ e mod m` for an exponent of at most `n` bits. -/
def powMod (m : Nat) : Nat → Nat → Nat → Nat
  | 0, _, _ => 1
  | n + 1, a, e => (if e % 2 = 1 then a else 1) * powMod m n (a * a % m) (e / 2) % m

/-- The inverse modulo a prime of 384 bits. -/
def invMod (m a : Nat) : Nat := powMod m 384 (a % m) (m - 2)

/-- A point (x, y, z) stands for (x / z², y / z³); z is 0 at the point at infinity. -/
structure CurvePt where
  x : Nat
  y : Nat
  z : Nat
  deriving DecidableEq, Repr

/-- The difference of two residues. -/
def curveSub (a b : Nat) : Nat := (a + curveP - b) % curveP

/-- Twice a point. -/
def curveDouble (p : CurvePt) : CurvePt :=
  let zz := p.z * p.z % curveP
  let yy := p.y * p.y % curveP
  let s := 4 * p.x * yy % curveP
  let m := 3 * curveSub p.x zz * (p.x + zz) % curveP
  let x := curveSub (m * m) (2 * s % curveP)
  { x := x, y := curveSub (m * curveSub s x) (8 * yy * yy % curveP), z := 2 * p.y * p.z % curveP }

/-- The sum of two points. -/
def curveAdd (p q : CurvePt) : CurvePt :=
  if p.z = 0 then q
  else if q.z = 0 then p
  else
    let pz := p.z * p.z % curveP
    let qz := q.z * q.z % curveP
    let u := p.x * qz % curveP
    let s := p.y * qz * q.z % curveP
    let h := curveSub (q.x * pz) u
    let r := curveSub (q.y * pz * p.z) s
    if h = 0 then (if r = 0 then curveDouble p else { x := 1, y := 1, z := 0 })
    else
      let hh := h * h % curveP
      let v := u * hh % curveP
      let x := curveSub (r * r) ((h * hh + 2 * v) % curveP)
      { x := x, y := curveSub (r * curveSub v x) (s * h * hh % curveP), z := h * p.z * q.z % curveP }

/-- A multiple of a point, by a factor of at most `n` bits. -/
def curveMul : Nat → Nat → CurvePt → CurvePt
  | 0, _, _ => { x := 1, y := 1, z := 0 }
  | n + 1, k, p =>
    let r := curveMul n (k / 2) (curveDouble p)
    if k % 2 = 1 then curveAdd p r else r

/-- Whether a pair of numbers is a point of the curve. -/
def onCurve (x y : Nat) : Bool :=
  decide (x < curveP) && decide (y < curveP) && y * y % curveP == (x * x * x + (curveP - 3) * x + curveB) % curveP

/-- The signature (r, s) verifies over a hash under the public key (x, y). -/
def ecdsaOk (x y hash r s : Nat) : Bool :=
  let w := invMod curveN s
  let g := curveMul 384 (hash * w % curveN) { x := curveG.1, y := curveG.2, z := 1 }
  let q := curveAdd g (curveMul 384 (r * w % curveN) { x := x, y := y, z := 1 })
  onCurve x y && decide (1 ≤ r ∧ r < curveN ∧ 1 ≤ s ∧ s < curveN) && decide (q.z ≠ 0) &&
    q.x * invMod curveP (q.z * q.z) % curveP % curveN == r

end Sys2Proof.Machine
end

