-- ==== Sys2Proof/Machine/Flash.lean ====
section
/-!
DEFINITION. The boot flash: programming and erasing, and the journalled stores of two copies each (R597, R629 to R631,
R650 to R653).
-/

namespace Sys2Proof.Machine

/-- Programs and erases are refused outside the temperature window, judged by the valid Slath sensors (R597). -/
def flashHot (d : Dev) : Bool :=
  (validOf d ((List.range 24).map (fun i => 384 + i))).any (fun i => decide (760 < reading d i ∨ reading d i < -240))

/-- A write of flash is accepted: not during shutdown, and within the temperature window (R597, R653). -/
def flashOpen (d : Dev) : Bool := !shuttingDown d && !flashHot d

/-- Bytes of flash. -/
def flashRead (m : Mem) (a n : Nat) : List Byte := mread flashByte m.flash a n

/-- Erase a range (R629). -/
def flashErase (m : Mem) (a n : Nat) : Mem :=
  { m with flash := m.flash.filter (fun c => decide (c.1 < a ∨ a + n ≤ c.1)) }

/-- Program bytes: a program clears bits and sets none (R629, PRESUMED, log 47). -/
def flashProgram (m : Mem) (a : Nat) (bs : List Byte) : Mem :=
  { m with flash := mwrite flashByte m.flash a ((bs.zip (flashRead m a bs.length)).map (fun p => p.1 &&& p.2)) }

/-! ### Journalled stores (R650 to R653) -/

/-- The four stores. -/
inductive Store where
  | boot
  | settings
  | frozen
  | ageing
  deriving DecidableEq, Repr

/-- MAGIC of a store (R652). -/
def Store.magic : Store → Nat
  | .boot => 0x7E59
  | .settings => 0x7E5A
  | .frozen => 0x7E5B
  | .ageing => 0x7E5C

/-- Bytes of one copy (R630). -/
def Store.size : Store → Nat
  | .boot => 0x10000
  | .settings => 0x80000
  | .frozen => 0x600000
  | .ageing => 0x100000

/-- Where copy 0 or 1 of a store lies (R630). -/
def Store.base (s : Store) (k : Nat) : Nat :=
  (match s with | .boot => 0 | .settings => 0x100000 | .frozen => 0x400000 | .ageing => 0x200000) + s.size * k

/-- A copy as read: its schema, SEQ and body. -/
structure JCopy where
  schema : Nat := 0
  seq : Nat := 0
  body : List Byte := []
  deriving DecidableEq, Repr

/-- A copy whose header is `hd` and whose store holds copies of `size` bytes, its body read by `body`; none unless its
MAGIC, both CRCs and COMMIT are correct (R652). -/
def parseCopy (magic size : Nat) (hd : List Byte) (body : Nat → List Byte) : Option JCopy :=
  let w := fun o => ofLeBytes ((hd.drop o).take 4)
  if w 0 % 65536 = magic ∧ 64 + w 8 ≤ size ∧ w 0x38 = crc32c (hd.take 0x38) ∧ w 0x3C = 0 then
    if w 0xC = crc32c (body (w 8)) then some { schema := w 0 / 65536, seq := w 4, body := body (w 8) } else none
  else none

/-- Copy `k` of a store as the flash holds it. -/
def copyOf (m : Mem) (s : Store) (k : Nat) : Option JCopy :=
  parseCopy s.magic s.size (flashRead m (s.base k) 64) (fun n => flashRead m (s.base k + 64) n)

/-- SEQ `x` is greater than `y`, compared within 2^31 (R652). -/
def seqAfter (x y : Nat) : Bool := decide (x ≠ y ∧ (x + 2 ^ 32 - y) % 2 ^ 32 < 2 ^ 31)

/-- The newest valid copy of a store, with its place (R652). -/
def newest (m : Mem) (s : Store) : Option (Nat × JCopy) :=
  match copyOf m s 0, copyOf m s 1 with
  | some a, some b => if seqAfter b.seq a.seq then some (1, b) else some (0, a)
  | some a, none => some (0, a)
  | none, some b => some (1, b)
  | none, none => none

/-- The header of a copy and its body, without COMMIT (R652). -/
def copyBytes (s : Store) (schema seq : Nat) (body : List Byte) : List Byte :=
  let h := leBytes 4 (s.magic + 65536 * schema) ++ leBytes 4 seq ++ leBytes 4 body.length ++ leBytes 4 (crc32c body) ++
    List.replicate 40 0
  h ++ leBytes 4 (crc32c h)

/-- A new copy replaces the older copy or an invalid one: erase, header, body, COMMIT last (R653). -/
def writeCopy (m : Mem) (s : Store) (schema : Nat) (body : List Byte) : Mem :=
  let (k, seq) := match newest m s with
    | some (k, c) => (1 - k, (c.seq + 1) % 2 ^ 32)
    | none => (0, (Config.firstCopySeq s.magic).toNat)
  let a := s.base k
  let m := flashProgram (flashErase m a s.size) a (copyBytes s schema seq body)
  flashProgram (flashProgram m (a + 64) body) (a + 0x3C) (leBytes 4 0)

/-! ### The boot record (R631) -/

/-- The body of the boot record. -/
def bootBody (b : Boot) : List Byte :=
  leBytes 4 (b.active.val + 4 * b.previous.val + 16 * b.staging.val + 64 * b.staged.toNat + 128 * b.confirmed.toNat +
    256 * (b.fails % 8))

/-- A new boot-record copy is written, if flash may be written. -/
def saveBoot (d : Dev) (m : Mem) (old new : Boot) : Mem × Boot :=
  if flashOpen d then (writeCopy m .boot 0 (bootBody new), new) else (m, old)

/-- A slot number as the boot record holds it. -/
def slotNo (n : Nat) : Option (Fin 3) := if h : n < 3 then some ⟨n, h⟩ else none

/-- The boot record as the boot ROM reads it; without a valid copy naming three distinct slots the record in force
stands (R631, DESIGN CHOICE, log 48). -/
def loadBoot (m : Mem) (b : Boot) : Boot :=
  match newest m .boot with
  | none => b
  | some (_, c) =>
    let w := ofLeBytes (c.body.take 4)
    match slotNo (natField w 1 0), slotNo (natField w 3 2), slotNo (natField w 5 4) with
    | some x, some y, some z =>
      if x = y ∨ x = z ∨ y = z then b
      else { b with active := x, previous := y, staging := z, staged := w.testBit 6, confirmed := w.testBit 7,
                    fails := natField w 10 8 }
    | _, _, _ => b

/-! ### The ageing store (R6, R601, R651) -/

/-- Words 1 to 5 of the ageing store's body: each die's baseline and initial floor code. -/
def ageWords (d : Dev) : List Byte :=
  (List.range 5).flatMap (fun k => leBytes 4 (rf d (avsA k 0x24) 15 0 + 65536 * ((tat d.health.floor0 k).getD 0 % 256)))

/-- Readings in an ageing body. -/
def ageReadings (body : List Byte) : List (List Byte) :=
  (List.range (ofLeBytes (body.take 2))).map (fun i => (body.drop (24 + 16 * i)).take 16)

/-- An ageing body of the given readings. -/
def ageBody (words : List Byte) (rs : List (List Byte)) : List Byte := leBytes 4 rs.length ++ words ++ rs.flatten

/-- Readings one copy holds. -/
def ageRoom : Nat := (Store.ageing.size - 64 - 24) / 16

/-- The readings are appended to the ageing store; in a full copy the oldest after the first goes (R651). -/
def ageAppend (d : Dev) (m : Mem) (b : Boot) : Mem :=
  let r := leBytes 4 (720 * b.ageRuns) ++ (List.range 5).flatMap (fun k => leBytes 2 (rf d (avsA k 0x20) 15 0)) ++ leBytes 2 0
  let (words, rs) := match newest m .ageing with
    | some (_, c) => ((c.body.drop 4).take 20, ageReadings c.body)
    | none => (ageWords d, [])
  let rs := if rs.length < ageRoom then rs ++ [r] else rs.take 1 ++ rs.drop 2 ++ [r]
  if flashOpen d then writeCopy m .ageing 0 (ageBody words rs) else m

/-- On JL1640-AX, with no valid copy in the store, the first in-service reading of each die is its baseline, and the
five go to the store together (R6). -/
def ageBaseline (d : Dev) (m : Mem) (b : Boot) (k now : Nat) : Dev × Mem :=
  if b.extended || (newest m .ageing).isSome then (ageMeasure d k now, m)
  else
    let first := (tat d.health.floor0 k).isNone
    let d := ageMeasure (if first then poke d (avsA k 0x24) 15 0 now else d) k now
    if flashOpen d && (List.range 5).all (fun j => (tat d.health.floor0 j).isSome) then
      (d, writeCopy m .ageing 0 (ageBody (ageWords d) []))
    else (d, m)

/-- AGE_BASE at Upsett: the fused baselines on JL1640-EX, else those the store holds; the initial floors come from the
store (R601, R618, R651). -/
def loadAgeing (d : Dev) (m : Mem) (b : Boot) : Dev :=
  let body := (newest m .ageing).map (fun p => p.2.body)
  (List.range 5).foldl (fun (d : Dev) k =>
    let w := body.map (fun x => ofLeBytes ((x.drop (4 + 4 * k)).take 4))
    let d := poke d (avsA k 0x24) 15 0 (if b.extended then tat b.fusedAge k else (w.getD 0) % 65536)
    match w with
    | none => d
    | some x => { d with health := { d.health with floor0 := tset d.health.floor0 k (some (natField x 23 16)) } }) d

end Sys2Proof.Machine
end

