-- ==== Sys2Proof/Machine/Image.lean ====
section
/-!
DEFINITION. The Benath image: its header, its checks, and whether it suits the running part (R632 to R635).
-/

namespace Sys2Proof.Machine

/-- Status codes of field update (R656). -/
inductive UpdStatus where
  | ok
  | busy
  | badArg
  | flashTemp
  | flashErr
  | sigFail
  | keyRevoked
  | rollback
  | incompatible
  | notStaged
  | shutdown
  | timeout
  | noPrevious
  | recipeTooLarge
  | mcDone
  deriving DecidableEq, Repr

/-- The code of a status (R656). -/
def UpdStatus.code (s : UpdStatus) : Nat := s.ctorIdx

/-- Bytes of a slot (R630). -/
def slotSize : Nat := 0x1000000

/-- Where a slot lies (R630). -/
def slotBase (k : Fin 3) : Nat := 0x1000000 * (k.val + 1)

/-- The header of an image, and its bytes. -/
structure Img where
  bytes : List Byte
  deriving DecidableEq, Repr

/-- Word at `o` of an image's header (R632). -/
def Img.word (i : Img) (o : Nat) : Nat := ofLeBytes ((i.bytes.drop o).take 4)

/-- The image in a slot: as many bytes as its header's IMAGE_LEN says, at least a header. -/
def readImage (m : Mem) (k : Fin 3) : Img :=
  let n := ofLeBytes (flashRead m (slotBase k + 4) 4)
  { bytes := flashRead m (slotBase k) (Nat.max 512 (Nat.min n slotSize)) }

/-- Sections of an image as (TYPE with its upper bits, OFFSET, LEN, CRC). -/
def Img.sections (i : Img) : List (Nat × Nat × Nat × Nat) :=
  (List.range (natField (i.word 8) 4 0)).map (fun n =>
    (i.word (0x100 + 16 * n), i.word (0x104 + 16 * n), i.word (0x108 + 16 * n), i.word (0x10C + 16 * n)))

/-- No two sections of a list overlap. -/
def sectionsApart : List (Nat × Nat × Nat × Nat) → Bool
  | [] => true
  | s :: r => r.all (fun t => decide (s.2.1 + s.2.2.1 ≤ t.2.1 ∨ t.2.1 + t.2.2.1 ≤ s.2.1)) && sectionsApart r

/-- Every header rule of R632. A section lies between the header and the signature (DEDUCED, log 49). -/
def headerOk (i : Img) : Bool :=
  let w0 := i.word 0
  let n := i.word 4
  let ss := i.sections
  let zero := fun (o k : Nat) => ((i.bytes.drop o).take k).all (fun x => x == 0)
  w0 % 65536 == 0x7D5B && natField w0 23 16 == 1 && decide (natField w0 25 24 ≤ 2) && natField w0 31 26 == 0 &&
  decide (608 ≤ n ∧ n ≤ slotSize ∧ n % 16 = 0) &&
  decide (1 ≤ natField (i.word 8) 4 0 ∧ natField (i.word 8) 4 0 ≤ 16) && natField (i.word 8) 7 5 == 0 &&
  natField (i.word 8) 31 9 == 0 && natField (i.word 0x10) 7 6 == 0 && natField (i.word 0x10) 31 16 == 0 &&
  natField (i.word 0x18) 31 16 == 0 && natField (i.word 0x1C) 31 20 == 0 && zero 0x24 0x5C && zero 0xE0 0x20 &&
  ss.all (fun s => decide (1 ≤ s.1 ∧ s.1 ≤ 4 ∧ 512 ≤ s.2.1 ∧ s.2.1 + s.2.2.1 ≤ n - 96)) && sectionsApart ss &&
  (ss.filter (fun s => decide (s.1 = 1))).length == 1 && (ss.filter (fun s => decide (s.1 = 3))).length == 1

/-- The first failure of R633 and R634, in their order; none for an image that is accepted. -/
def imageFault (b : Boot) (i : Img) : Option UpdStatus :=
  let k := natField (i.word 0) 25 24
  let n := i.word 4
  let key := (i.bytes.drop 0x80).take 96
  let sig := (i.bytes.drop (n - 96)).take 96
  if !headerOk i then some .sigFail
  else if sha384 key ≠ tat b.keyHash k then some .sigFail
  else if b.keyRevoke.testBit k then some .keyRevoked
  else if !ecdsaOk (ofBeBytes (key.take 48)) (ofBeBytes (key.drop 48)) (sha384 (i.bytes.take (n - 96)))
      (ofBeBytes (sig.take 48)) (ofBeBytes (sig.drop 48)) then some .sigFail
  else if i.sections.any (fun s => crc32c ((i.bytes.drop s.2.1).take s.2.2.1) != s.2.2.2) then some .sigFail
  else if natField (i.word 0x10) 5 0 < b.secFloor then some .rollback
  else none

/-- STEPPINGS holds the part's stepping, B0 (R7, R632, R635). -/
def steppingOk (i : Img) : Bool := (i.word 0x10).testBit 9

/-- An image staged is accepted (R639): R633, R634 and the part of R635 that can refuse it here. -/
def stagedFault (b : Boot) (i : Img) : Option UpdStatus :=
  match imageFault b i with
  | some f => some f
  | none => if steppingOk i then none else some .incompatible

/-- A FAB_PROTO major unlike the running one, while any Limileri port is up, needs FORCE (R635). -/
def fabFault (d : Dev) (i : Img) (force : Bool) : Bool :=
  natField (i.word 0x1C) 7 4 != d.img.fab / 16 && (List.range 5).any (fabUp d) && !force

/-- The versions of an image (R632). -/
def imgVer (i : Img) : ImgVer :=
  { fab := natField (i.word 0x1C) 7 0, pair := natField (i.word 0x1C) 15 12, pairMin := natField (i.word 0x1C) 19 16,
    schema := i.word 0x20 % 65536, schemaMin := i.word 0x20 / 65536 }

/-- BOOT_FAIL names the last failed check of a slot (R655). -/
def markFail (d : Dev) (k : Fin 3) (f : UpdStatus) : Dev :=
  poke d (ra pgBoot 0x108) (8 * k.val + 7) (8 * k.val) f.code

/-- The image of a slot, or why it fails; a failure is recorded in BOOT_FAIL (R627, R633, R634). -/
def checkSlot (d : Dev) (m : Mem) (b : Boot) (k : Fin 3) : Dev × Option Img :=
  let i := readImage m k
  match imageFault b i with
  | none => (d, some i)
  | some f => (markFail d k f, none)

/-- Whether the image in a slot passes R633 and R634. -/
def slotOk (m : Mem) (b : Boot) (k : Fin 3) : Bool := (imageFault b (readImage m k)).isNone

end Sys2Proof.Machine
end

