-- ==== Sys2Proof/Machine/Recipe.lean ====
section
/-!
DEFINITION. The frozen recipe: its entries, their capture, and how recipes and settings are applied (R648 to R650).
-/

namespace Sys2Proof.Machine

/-- An entry of a recipe: a run of registers from BAR0 offset `off`, or a table block at BAR2 offset `off` (R650). -/
structure RecipeEnt where
  table : Bool := false
  off : Nat := 0
  bytes : List Byte := []
  deriving DecidableEq, Repr

/-- Pixels of a row of a table block's container (DEDUCED, log 50). -/
def blockRow : Nat := 16384

/-- A table block as one Treley container of 8-bit samples (R650, DEDUCED, log 50). -/
def blockContainer (bs : List Byte) : List Byte :=
  let w := min blockRow bs.length
  let rows := (List.range ((bs.length + w - 1) / w)).map (fun i =>
    newRow [((bs.drop (w * i)).take w).map (fun x => x.toNat)] [] [])
  (container 0 0 8 w rows true).1

/-- The bytes of an entry, padded to a 16-byte boundary (R650). -/
def entryBytes (e : RecipeEnt) : List Byte :=
  let h := leBytes 4 (e.off + 2 ^ 30 * e.table.toNat)
  let b := h ++ (if e.table then leBytes 4 e.bytes.length ++ blockContainer e.bytes
    else leBytes 4 (e.bytes.length / 4) ++ e.bytes)
  b ++ List.replicate ((16 - b.length % 16) % 16) 0

/-- The entry at the head of a body, with the bytes it takes; none where a block does not decode (R390, R650). The offset
is read from bits [29:0]: 26 bits cannot name every table of BAR2 (DEDUCED, log 50). -/
def parseEntry (bs : List Byte) : Option (RecipeEnt × Nat) :=
  let w := ofLeBytes (bs.take 4)
  let n := ofLeBytes ((bs.drop 4).take 4)
  let pad := fun k => k + (16 - k % 16) % 16
  if natField w 31 30 = 0 then some ({ off := natField w 29 0, bytes := (bs.drop 8).take (4 * n) }, pad (8 + 4 * n))
  else if natField w 31 30 = 1 then
    match decodeContainer (bs.drop 8) (bs.length - 8) with
    | .error _ => none
    | .ok (h, rows) =>
      let data := (rows.flatMap (fun r => (r.planes.headD []).map (fun v => BitVec.ofNat 8 v))).take n
      some ({ table := true, off := natField w 29 0, bytes := data }, pad (8 + 32 + h.pay))
  else none

/-- The entries of a body, in order (R650). -/
def recipeEntries : Nat → List Byte → List RecipeEnt
  | 0, _ => []
  | n + 1, bs =>
    if bs.length < 16 then []
    else
      match parseEntry bs with
      | none => []
      | some (e, k) => e :: recipeEntries n (bs.drop k)

/-- Runs of registers at consecutive offsets. -/
def regRuns : List (Nat × Word) → List RecipeEnt
  | [] => []
  | (a, v) :: r =>
    match regRuns r with
    | e :: es => if e.off = a + 4 then { off := a, bytes := leBytes 4 v.toNat ++ e.bytes } :: es
        else { off := a, bytes := leBytes 4 v.toNat } :: e :: es
    | [] => [{ off := a, bytes := leBytes 4 v.toNat }]

/-- Every page with shadow registers. -/
def shadowPages : List Nat := (List.range 0x267).filter (fun pg => isShadowPage pg && !(shadowOffsets pg).isEmpty)

/-- The committed shadow registers: values in force, beside what else a word holds (R650, R660). -/
def committedRegs (d : Dev) : List (Nat × Word) :=
  shadowPages.flatMap (fun pg => (isort (fun a b => decide (a ≤ b)) (shadowOffsets pg)).map (fun a =>
    let rw := ((regRow a).map (fun r => r.1.rw)).getD 0
    (a, (inForce d a &&& shadowMask a) ||| (reg d a &&& rw &&& ~~~ shadowMask a))))

/-- The tables in use, by BAR2 offset and length: the banks of contexts that serve a port, and the classification
tables in force (R186, R304, R650). -/
def tablesUsed (d : Dev) : List (Nat × Nat) :=
  ((List.range 16).flatMap (fun w => (((List.range 2).filter (fun x => (portOfCtx d.force w x).isSome)).map
    (fun x => (bankBase w (bankOf d.force w x), 0x180000))).eraseDups)) ++
  (List.range 8).map (fun t =>
    (0xE000000 + 0x1000 * (2 * t + ((ff d (ra pgTrk 0x170) 7 0).testBit t).toNat), 0x1000))

/-- The frozen recipe captured now (R650). -/
def captureRecipe (d : Dev) (m : Mem) : List Byte :=
  (regRuns (committedRegs d)).flatMap entryBytes ++
    (tablesUsed d).flatMap (fun t => entryBytes
      { table := true, off := t.1, bytes := (List.range t.2).map (fun i => barByte d m (t.1 + i)) })

/-- Write one entry as a host would. -/
def applyEntry (b : Boot) (r : Dev × Mem) (e : RecipeEnt) : Dev × Mem :=
  if e.table then barWrite r.1 r.2 e.off e.bytes
  else
    (List.range (e.bytes.length / 4)).foldl (fun (r : Dev × Mem) i =>
      writeWord r.1 r.2 b (e.off + 4 * i) (BitVec.ofNat 32 (ofLeBytes ((e.bytes.drop (4 * i)).take 4)))) r

/-- The pages whose shadow registers a list of entries writes. -/
def entryPages (es : List RecipeEnt) : List Nat :=
  shadowPages.filter (fun pg => es.any (fun e => !e.table && decide (e.off / 4096 = pg)))

/-- Entries are written in order and what they shadow is committed at once, in immediate mode (R625, R650). -/
def applyNow (d : Dev) (m : Mem) (b : Boot) (es : List RecipeEnt) : Dev × Mem :=
  let r := es.foldl (applyEntry b) (d, m)
  (settle r.2 b (commitNowGroup r.1 r.2 (entryPages es)), r.2)

/-- Entries are written and armed as one commit group for the system line 64 lines ahead (R649). -/
def applyAhead (d : Dev) (m : Mem) (b : Boot) (es : List RecipeEnt) : Dev × Mem :=
  let r := es.foldl (applyEntry b) (d, m)
  let a : Arming := { armed := true, mode := 1, pos := r.1.pos.sysLine + 64 }
  ({ r.1 with arming := (entryPages es).foldl (fun t pg => tset t pg a) r.1.arming }, r.2)

/-- The entries of a settings copy, whose body only the image that wrote it can read (R648, R649, DESIGN CHOICE, log 51). -/
def settingsEntries (c : JCopy) : List RecipeEnt :=
  (Config.settingsEntries c.schema c.body).map (fun e => { table := e.1, off := e.2.1, bytes := e.2.2 })

/-- The newest settings copy has a schema the image reads (R635, R648). -/
def settingsReadable (d : Dev) (m : Mem) : Option JCopy :=
  match newest m .settings with
  | none => none
  | some (_, c) => if d.img.schemaMin ≤ c.schema ∧ c.schema ≤ d.img.schema then some c else none

/-- The start applies its settings, or in their stead the newest frozen recipe alone; `ok` tells which (R625, R648). -/
def applySettings (d : Dev) (m : Mem) (b : Boot) : (Dev × Mem) × Bool :=
  match settingsReadable d m with
  | some c => (applyNow (poke (pokeBit d (ra pgBoot 0x100) 17 false) (ra pgBoot 0x114) 31 16 c.schema) m b (settingsEntries c), true)
  | none =>
    let d := pokeBit d (ra pgBoot 0x100) 17 true
    let d := poke d (ra pgBoot 0x114) 31 16 (((newest m .settings).map (fun p => p.2.schema)).getD 0)
    match newest m .frozen with
    | none => ((d, m), false)
    | some (_, c) => (applyNow d m b (recipeEntries (c.body.length / 16) c.body), false)

end Sys2Proof.Machine
end

