-- ==== Sys2Proof/Machine/Upsett.lean ====
section
/-!
DEFINITION. Resets and Upsett: what a reset keeps, what holds it up, the choice of the image, and the start (R596,
R624 to R628, R645 to R648, R669, R677, R683).
-/

namespace Sys2Proof.Machine

/-- UPD_SESSION.STATUS; a change raises SWI31 (R656). -/
def setStatus (d : Dev) (st : UpdStatus) : Dev :=
  if rf d (ra pgUpd 0x104) 23 16 = st.code then d else swiSet (poke d (ra pgUpd 0x104) 23 16 st.code) 0x80000000

/-- A field of one register carried over a reset. -/
def carry (d : Dev) (x : Dev) (q : Nat × Word) : Dev :=
  setReg x q.1 ((reg x q.1 &&& ~~~ q.2) ||| (reg d q.1 &&& q.2))

/-- What a reset other than power-on keeps: REP_EN, ERRC_FATAL and the latch of THERM_TRIP_N (R126, R596, R613, R624). -/
def warmKeeps : List (Nat × Word) :=
  (List.range 8).map (fun c => (ra (pgEnc c) 0x100, 0x2000)) ++
    slotWords.map (fun i => (errcA (slotFatal + i), 0xFFFFFFFF)) ++ [(thermStatA, 0x4000000)]

/-- The Slath sensors go on reading through a reset (R596). -/
def slathKeeps : List (Nat × Word) := (List.range 24).map (fun i => (sensorA (384 + i), 0xFFFF))

/-- Every register at its reset value but those kept, with the cause of the reset (R624, R655, R669). The control-clock
edges are counted anew. -/
def resetDev (d : Dev) (b : Boot) (power : Bool) (cause : Nat) : Dev :=
  let x : Dev := { out := d.out, pair := { okIn := d.pair.okIn, actIn := d.pair.actIn } }
  let x := ((if power then [] else warmKeeps) ++ slathKeeps).foldl (carry d) x
  let x := setReg (setReg x (ra pgFab 0x108) (BitVec.ofNat 32 b.serial)) (ra pgFab 0x10C) (BitVec.ofNat 32 (b.serial / 2 ^ 32))
  poke x (ra pgBoot 0x104) 2 0 cause

/-- The memories after a reset: flash and host memory stay, the tables are cleared (R186), and LPDDR5X holds nothing it
held (R624; DEDUCED, log 54). -/
def resetMem (m : Mem) : Mem :=
  { host := m.host, flash := m.flash, lpxLost := (0, 2 ^ 64) :: m.lpxLost }

/-- Every Slath-zone sensor reads below 95 °C (R596). -/
def slathCool (d : Dev) : Bool := (List.range 24).all (fun i => decide (reading d (384 + i) < 760))

/-! ### The choice of the image (R627, R645, R647) -/

/-- The active and the previous slot change places, and the image is taken as CONFIRMED (R647). -/
def revertSlots (b : Boot) : Boot :=
  { b with active := b.previous, previous := b.active, confirmed := true, fails := 0 }

/-- The boot ROM reverts to an image it has checked (R627, R647). -/
def romReverts (d : Dev) (m : Mem) (b : Boot) (i : Img) : Dev × Mem × Boot × Option Img :=
  let r := saveBoot d m b (revertSlots b)
  (pokeBit d (ra pgBoot 0x100) 19 true, r.1, r.2, some i)

/-- The boot ROM chooses an image: the active one, unless it fails its checks or has not had a good start in two; none
where both images fail (R627, R645, R647). -/
def romChoose (d : Dev) (m : Mem) (b : Boot) : Dev × Mem × Boot × Option Img :=
  match checkSlot d m b b.active with
  | (d, none) =>
    match checkSlot d m b b.previous with
    | (d, none) => (d, m, b, none)
    | (d, some j) => romReverts d m b j
  | (d, some i) =>
    if b.confirmed then (d, m, b, some i)
    else
      let n := Nat.min 2 (b.fails + 1)
      let keep := fun (d : Dev) =>
        let r := if n = b.fails then (m, b) else saveBoot d m b { b with fails := n }
        (d, r.1, r.2, some i)
      if n < 2 then keep d
      else
        match checkSlot d m b b.previous with
        | (d, some j) => romReverts d m b j
        | (d, none) => keep (pokeBit d (ra pgBoot 0x100) 18 true)

/-- What the BOOT page and the part know of the image that runs (R630, R632, R655). -/
def showImage (d : Dev) (i : Img) : Dev :=
  let d := { d with img := imgVer i, upd := { d.upd with mcMin := i.word 0x18 % 65536 } }
  let d := setReg d (ra pgBoot 0x10C) (BitVec.ofNat 32 (i.word 0xC))
  let d := poke d (ra pgBoot 0x114) 15 0 (i.word 0x20)
  poke d (ra pgBoot 0x118) 5 0 (i.word 0x10)

/-- Settings have been read: applied, a good start is 60 s away; else the start is not good and INCOMPATIBLE (R645,
R648). -/
def settled (d : Dev) (ok : Bool) : Dev :=
  let d := { d with upd := { d.upd with settledAt := if ok then some d.cycle else none } }
  if ok then d else setStatus d .incompatible

/-- Steps 5 to 9 of Upsett under an image (R625). -/
def startImage (d : Dev) (m : Mem) (b : Boot) (i : Img) : Dev × Mem × Boot :=
  let d := setReg (loadAgeing (showImage d i) m b) (ra pgBoot 0x110) (BitVec.ofNat 32 (i.word 0x14))
  let r := applySettings { d with life := .up } m b
  let d := settled r.1.1 r.2
  let d := setReg d (ra pgBoot 0x11C) (Config.bootTime b.resets)
  (if reg d (errcA slotFatal) = 0 then d else evt d pgErrc 3, r.1.2, b)

/-- Upsett goes as far as it can: a strap, a rail, the reference clock or the temperature may hold it; then an image is
chosen and started, or the part enters recovery (R596, R625, R627, R628, R677, R683). -/
def upsett (d : Dev) (m : Mem) (b : Boot) : Dev × Mem × Boot :=
  if b.testEn then ({ d with life := .held 5 }, m, b)
  else if !b.railsLost.isEmpty then ({ d with life := .held 3 }, m, b)
  else if !b.refOk then ({ d with life := .held 4 }, m, b)
  else if !slathCool d then ({ d with life := .held 2 }, m, b)
  else
    let d := pokeBit d thermStatA 26 false
    match romChoose d m (loadBoot m b) with
    | (d, m, b, some i) => startImage d m b i
    | (d, m, b, none) => ({ poke d (ra pgBoot 0x100) 30 28 2 with life := .recovery }, m, b)

/-- A reset of the part, and Upsett (R624). What the error controller had not yet taken is taken first. -/
def resetPart (d : Dev) (m : Mem) (b : Boot) (power : Bool) (cause : Nat) : Dev × Mem × Boot :=
  let d := if d.life = .up ∧ !power then takeErrors d b else d
  let b := { b with resets := b.resets + 1, dogAt := none }
  upsett (resetDev d b power cause) (resetMem m) b

/-- PORESET_N low and released, with the straps and pins as they then are (R514, R624, R677, R683). -/
def powerOn (d : Dev) (m : Mem) (b : Boot) (side testEn refOk twinOk twinAct : Bool) : Dev × Mem × Boot :=
  let d := { d with pair := { d.pair with okIn := twinOk, actIn := twinAct } }
  resetPart d m { b with side := side, testEn := testEn, refOk := refOk, railsLost := [] } true 0

/-- A rail below its threshold holds the part in power-on reset (R624, R677). -/
def railLost (d : Dev) (m : Mem) (b : Boot) (rail : Nat) : Dev × Mem × Boot :=
  let lost := if b.railsLost.contains rail then b.railsLost else rail :: b.railsLost
  let b := { b with resets := b.resets + 1, dogAt := none, railsLost := lost }
  ({ resetDev d b true 0 with life := .held 3 }, resetMem m, b)

/-- RESET_N low and released: a part held in reset for want of a clock, a rail or by TEST_EN stays so (R65, R624, R677). -/
def warmReset (d : Dev) (m : Mem) (b : Boot) (cause : Nat) : Dev × Mem × Boot :=
  match d.life with
  | .held k => if k = 2 then resetPart d m b false cause else (d, m, b)
  | _ => resetPart d m b false cause

/-- The root PLL has lock again (R65). -/
def rootLockBack (d : Dev) (m : Mem) (b : Boot) : Dev × Mem × Boot :=
  if d.life = .held 1 then resetPart d m b false 3 else (d, m, b)

/-- The check of R596 every 100 ms: once the Slath zones are cool, Upsett runs. -/
def tripRelease (d : Dev) (m : Mem) (b : Boot) : Dev × Mem × Boot :=
  if d.life = .held 2 ∧ slathCool d then resetPart d m b false (rf d (ra pgBoot 0x104) 2 0) else (d, m, b)

/-- REFCLK_ROOT is in range, and an Upsett that waited for it goes on (R66, R677). -/
def refRootBack (d : Dev) (m : Mem) (b : Boot) : Dev × Mem × Boot :=
  let b := { b with refOk := true }
  if d.life = .held 4 then upsett d m b else (d, m, b)

end Sys2Proof.Machine
end

