-- ==== Sys2Proof/Machine/Update.lean ====
section
/-!
DEFINITION. Field update: staging sessions, activation, the microcode change, migrated settings and good starts (R635 to
R656).
-/

namespace Sys2Proof.Machine

/-- Time passes up to an edge, also where no encoder is sampled. -/
def passTo (d : Dev) (m : Mem) (b : Boot) (t : Nat) : Dev :=
  if d.life = .up then elapse d m b t else { d with cycle := Nat.max d.cycle t }

/-- Operation codes of update messages (R637). -/
def opOpen : Nat := 1
def opWrite : Nat := 2
def opClose : Nat := 3
def opAbort : Nat := 4
def opActivate : Nat := 5
def opStatus : Nat := 6

/-- The words of an update message (R637). -/
def updHeader (op st token len off crc : Nat) : List Word :=
  [wpack [(0, 16, 0x7E21), (16, 8, op), (24, 8, st)], wpack [(0, 16, token), (16, 16, len)], BitVec.ofNat 32 off,
    BitVec.ofNat 32 crc]

/-- A message of at most 120 bytes as one UPDATE frame of the Pairing link (R541). -/
def sendUpdate (d : Dev) (bs : List Byte) : Dev :=
  let n := (d.pair.msgTx + 1) % 65536
  sendPair { d with pair := { d.pair with msgTx := n } }
    (dpack [(60, 4, 9), (32, 16, n), (16, 16, 0), (0, 16, bs.length)] ::
      (List.range ((bs.length + 7) / 8)).map (fun i => BitVec.ofNat 64 (ofLeBytes ((bs.drop (8 * i)).take 8))))

/-- An operation is answered: PCIe through UPD_SESSION.STATUS, the others with their own header (R636, R637). -/
def answer (d : Dev) (r : UpdRequest) (op token : Nat) (st : UpdStatus) : Dev :=
  if r.source.val = 1 then setStatus d st
  else
    let h := updHeader op st.code token r.payload.length r.offset r.crc.toNat
    let d := emit d (.updReply r.source.val h)
    if r.source.val = 4 then sendUpdate d (h.flatMap (fun w => leBytes 4 w.toNat)) else d

/-- The status of the session, as its owner caused it, is also shown (R656). -/
def ownAnswer (d : Dev) (r : UpdRequest) (op token : Nat) (st : UpdStatus) : Dev :=
  if r.source.val = 1 then answer d r op token st else answer (setStatus d st) r op token st

/-- A source is served: PCIe always, another while the part runs and its enable is set (R628, R636). On the Pairing link
only a standby part is staged into (R644). -/
def served (d : Dev) (src : Nat) : Bool :=
  match src with
  | 1 => decide (d.life = .up) || decide (d.life = .recovery)
  | 2 => decide (d.life = .up) && rb d (ra pgUpd 0x100) 31
  | 3 => decide (d.life = .up) && rb d (ra pgUpd 0x100) 30
  | 4 => decide (d.life = .up) && rb d (ra pgUpd 0x100) 29 && standby d
  | _ => false

/-- A source is refused: BUSY, and counted (R636). -/
def refuseBusy (d : Dev) (r : UpdRequest) (op : Nat) : Dev :=
  answer (count d (ra pgUpd 0x11C)) r op r.token.toNat .busy

/-- The session belongs to this source and token (R636). -/
def owns (d : Dev) (r : UpdRequest) : Bool :=
  match d.upd.sess with
  | none => false
  | some s => decide (s.owner = r.source.val) && (decide (r.source.val = 1) || decide (s.token = r.token.toNat))

/-- An operation of the owner keeps its session alive (R639). -/
def touchSess (d : Dev) : Dev :=
  { d with upd := { d.upd with sess := d.upd.sess.map (fun s => { s with lastAt := d.cycle }) } }

/-- The session ends. -/
def endSess (d : Dev) : Dev := { d with upd := { d.upd with sess := none } }

/-- Why flash may not be written now, if it may not (R597, R653). -/
def flashRefusal (d : Dev) : Option UpdStatus :=
  if shuttingDown d then some .shutdown else if flashHot d then some .flashTemp else none

/-- OPEN: a session opens, the staging slot is erased and STAGED cleared; or it is refused (R636, R638). -/
def openSess (d : Dev) (m : Mem) (b : Boot) (r : UpdRequest) : Dev × Mem × Boot :=
  if !served d r.source.val then (d, m, b)
  else if d.upd.sess.isSome || d.restart then (refuseBusy d r opOpen, m, b)
  else
    match flashRefusal d with
    | some st => (answer d r opOpen 0 st, m, b)
    | none =>
      let q := if b.staged then saveBoot d m b { b with staged := false } else (m, b)
      let t := (Config.token d.upd.opened).toNat
      let d := { d with upd := { d.upd with sess := some { owner := r.source.val, token := t, lastAt := d.cycle },
                                            opened := d.upd.opened + 1 } }
      (ownAnswer d r opOpen t .ok, flashErase q.1 (slotBase b.staging) slotSize, q.2)

/-- Bytes are programmed into the staging slot, or refused (R637, R638). -/
def stageBytes (d : Dev) (m : Mem) (b : Boot) (r : UpdRequest) (ok : Bool) : Dev × Mem :=
  let d := touchSess d
  let tok := r.token.toNat
  if !ok || decide (slotSize < r.offset + r.payload.length) then (ownAnswer d r opWrite tok .badArg, m)
  else
    match flashRefusal d with
    | some st => (ownAnswer d r opWrite tok st, m)
    | none => (ownAnswer d r opWrite tok .ok, flashProgram m (slotBase b.staging + r.offset) r.payload)

/-- WRITE: a message's payload, whose CRC must fit (R637). -/
def writeSess (d : Dev) (m : Mem) (b : Boot) (r : UpdRequest) : Dev × Mem :=
  if !served d r.source.val then (d, m)
  else if !owns d r then (refuseBusy d r opWrite, m)
  else
    stageBytes d m b r (decide (r.payload.length ≤ 1024 ∧ r.payload.length % 16 = 0) && decide (crc32c r.payload = r.crc.toNat))

/-- UPD_CTRL.PROGRAM: the update window goes into the staging slot (R638). -/
def programWindow (d : Dev) (m : Mem) (b : Boot) : Dev × Mem :=
  let n := rf d (ra pgUpd 0x10C) 16 0
  let r : UpdRequest := { source := 1, token := 0, offset := rf d (ra pgUpd 0x108) 23 0, crc := 0,
                          payload := mread zeroByte m.win 0 (Nat.min n 65536) }
  if !served d 1 then (d, m)
  else if !owns d r then (refuseBusy d r opWrite, m)
  else stageBytes d m b r (decide (16 ≤ n ∧ n ≤ 65536 ∧ n % 16 = 0))

/-- The slots rotate: the staging slot becomes active, the active one previous, the previous one staging (R640). -/
def rotate (b : Boot) : Boot :=
  { b with active := b.staging, previous := b.active, staging := b.previous, staged := false, confirmed := false, fails := 0 }

/-- CLOSE: the staged image is checked and STAGED set (R639). In recovery the part restarts into it (R628). -/
def closeSess (d : Dev) (m : Mem) (b : Boot) (r : UpdRequest) : Dev × Mem × Boot :=
  let tok := r.token.toNat
  if !served d r.source.val then (d, m, b)
  else if !owns d r then (refuseBusy d r opClose, m, b)
  else
    let d := endSess d
    match flashRefusal d with
    | some st => (ownAnswer d r opClose tok st, m, b)
    | none =>
      match stagedFault b (readImage m b.staging) with
      | some f => (ownAnswer (markFail d b.staging f) r opClose tok f, m, b)
      | none =>
        if d.life = .recovery then
          let q := saveBoot d m b (rotate b)
          resetPart (ownAnswer d r opClose tok .ok) q.1 q.2 false 5
        else
          let q := saveBoot d m b { b with staged := true }
          (ownAnswer d r opClose tok .ok, q.1, q.2)

/-- ABORT: the session ends at once (R639). -/
def abortSess (d : Dev) (r : UpdRequest) : Dev :=
  if !served d r.source.val then d
  else if !owns d r then refuseBusy d r opAbort
  else ownAnswer (endSess d) r opAbort r.token.toNat .ok

/-- The status that UPD_SESSION shows. -/
def shownStatus (d : Dev) : UpdStatus :=
  let c := rf d (ra pgUpd 0x104) 23 16
  (([.ok, .busy, .badArg, .flashTemp, .flashErr, .sigFail, .keyRevoked, .rollback, .incompatible, .notStaged, .shutdown,
    .timeout, .noPrevious, .recipeTooLarge, .mcDone] : List UpdStatus)[c]?).getD .ok

/-- STATUS: the session's status goes to its owner, and with no session to any source (R637). -/
def statusSess (d : Dev) (r : UpdRequest) : Dev :=
  if !served d r.source.val then d
  else if d.upd.sess.isSome && !owns d r then refuseBusy d r opStatus
  else answer (touchSess d) r opStatus r.token.toNat (shownStatus d)

/-- A session without an operation for 10 s ends (R639). -/
def timeoutSess (d : Dev) (m : Mem) (b : Boot) : Dev :=
  match d.upd.sess with
  | none => d
  | some s => setStatus (endSess (passTo d m b (s.lastAt + 4000000000))) .timeout

/-! ### Activate (R640, R641, R646) -/

/-- A management restart begins: BUSY, commits refused, Lid claims pending again, register-bulk transfers ended (R91,
R641). It lasts 120 ms. -/
def beginRestart (d : Dev) : Dev :=
  let d := pokeBit { d with restart := true, upd := { d.upd with doneAt := d.cycle + 48000000, settledAt := none } }
    (ra pgUpd 0x110) 0 true
  bulkRestarted (repend d [0, 1])

/-- An activation ends without a restart, with a status. -/
def notActivated (d : Dev) (r : UpdRequest) (st : UpdStatus) : Dev := ownAnswer d r opActivate r.token.toNat st

/-- An activation is accepted: a message is answered now, UPD_SESSION shows OK when the new Benath runs (R641). -/
def accepted (d : Dev) (r : UpdRequest) : Dev :=
  if r.source.val = 1 then d else answer d r opActivate r.token.toNat .ok

/-- A running image that is not CONFIRMED gives way to the previous one (R640, R647). -/
def activateBack (d : Dev) (m : Mem) (b : Boot) (r : UpdRequest) : Dev × Mem × Boot :=
  match checkSlot d m b b.previous with
  | (d, none) => (notActivated (pokeBit d (ra pgBoot 0x100) 18 true) r .noPrevious, m, b)
  | (d, some _) =>
    let q := saveBoot d m b (revertSlots b)
    (beginRestart (accepted (pokeBit d (ra pgBoot 0x100) 19 true) r), q.1, q.2)

/-- The staged image becomes the active one (R635, R641). What fails its checks leaves the slots as they were. -/
def activateStaged (d : Dev) (m : Mem) (b : Boot) (r : UpdRequest) (force : Bool) : Dev × Mem × Boot :=
  let i := readImage m b.staging
  if fabFault d i force then (notActivated d r .incompatible, m, b)
  else
    let q := saveBoot d m b (rotate b)
    match stagedFault b i with
    | some f =>
      let u := saveBoot d q.1 q.2 b
      (notActivated (markFail d b.staging f) r f, u.1, u.2)
    | none => (beginRestart (accepted d r), q.1, q.2)

/-- ACTIVATE (R640). -/
def activateImage (d : Dev) (m : Mem) (b : Boot) (r : UpdRequest) (force : Bool) : Dev × Mem × Boot :=
  if !served d r.source.val || decide (d.life ≠ .up) then (d, m, b)
  else if d.upd.sess.isSome && !owns d r then (refuseBusy d r opActivate, m, b)
  else if d.upd.sess.isSome || d.restart then (notActivated d r .busy, m, b)
  else
    match flashRefusal d with
    | some st => (notActivated d r st, m, b)
    | none =>
      if !b.confirmed then activateBack d m b r
      else if !b.staged then (notActivated d r .notStaged, m, b)
      else activateStaged d m b r force

/-- What the new image's microcode asks for: it waits where it differs from the running one, and is compulsory where the
running major is below MC_MIN (R635, R642, R654). -/
def queueMicrocode (d : Dev) (i : Img) : Dev :=
  let new := i.word 0x14
  let run := (reg d (ra pgBoot 0x110)).toNat
  let u := d.upd
  if new = run then { pokeBit d (ra pgBoot 0x100) 16 false with upd := { u with mcGo := 0 } }
  else
    let must := decide (run / 65536 < i.word 0x18 % 65536)
    { pokeBit d (ra pgBoot 0x100) 16 true with
      upd := { u with mcNew := new, mcGo := if must then 2 else if u.mcNew = new then u.mcGo else 0,
                      mcBlock := if must then d.pos.sysLine / 256 + 1 else u.mcBlock } }

/-- The management restart ends: the new Benath runs, has read its settings, and commits are accepted again (R641, R645,
R648). Calibration runs that waited start. -/
def endRestart (d : Dev) (m : Mem) (b : Boot) : Dev × Mem :=
  if !d.restart then (d, m)
  else
    let d := elapse d m b d.upd.doneAt
    let i := readImage m b.active
    let d := pokeBit { queueMicrocode (showImage d i) i with restart := false } (ra pgUpd 0x110) 0 false
    let r := applySettings d m b
    let d := settled (if r.2 then setStatus r.1.1 .ok else r.1.1) r.2
    (calStartAll d, r.1.2)

/-- The Lid watchdog expires: a management restart, or a warm reset when it is the second within 60 s (R646). -/
def watchdog (d : Dev) (m : Mem) (b : Boot) : Dev × Mem × Boot :=
  if d.restart then (d, m, b)
  else
    match b.dogAt with
    | some t =>
      if d.cycle ≤ t + 24000000000 then resetPart d m b false 2
      else (beginRestart d, m, { b with dogAt := some d.cycle })
    | none => (beginRestart d, m, { b with dogAt := some d.cycle })

/-- Benath has run for 60 s on applied settings: the start is good, and RAISE_FLOOR takes effect (R634, R645). -/
def goodStart (d : Dev) (m : Mem) (b : Boot) : Dev × Mem × Boot :=
  match d.upd.settledAt with
  | none => (d, m, b)
  | some t =>
    if d.restart then (d, m, b)
    else
      let d := elapse d m b (t + 24000000000)
      if b.confirmed ∧ b.fails = 0 then ({ d with upd := { d.upd with settledAt := none } }, m, b)
      else if !flashOpen d then (d, m, b)
      else
        let i := readImage m b.active
        let q := saveBoot d m b { b with confirmed := true, fails := 0 }
        let floor' := if (i.word 8).testBit 8 then Nat.max b.secFloor (natField (i.word 0x10) 5 0) else b.secFloor
        ({ d with upd := { d.upd with settledAt := none } }, q.1, { q.2 with secFloor := floor' })

/-! ### Microcode (R642 to R644) -/

/-- MC_PENDING. -/
def mcPending (d : Dev) : Bool := rb d (ra pgBoot 0x100) 16

/-- The first system block whose first line lies at least 64 lines ahead. -/
def swapBlock (d : Dev) : Nat := (d.pos.sysLine + 64 + 255) / 256

/-- UPD_CTRL.MC_GO: the change waits for the next system block, on a PROTECTED active part for a swap first (R642, R644,
R654). -/
def mcGoWrite (d : Dev) : Dev :=
  if !mcPending d || decide (d.upd.mcGo = 2) then d
  else if pairEn d && decide (pairState d = 4) then
    let d := { d with upd := { d.upd with mcGo := 3 } }
    if d.pair.swap.isSome then d else requestSwap d (256 * swapBlock d) 1
  else { d with upd := { d.upd with mcGo := 1, mcBlock := d.pos.sysLine / 256 + 1 } }

/-- A microcode change is due in the present system block (R642 to R644). -/
def mcDue (d : Dev) : Bool :=
  let blk := d.pos.sysLine / 256
  mcPending d && match d.upd.mcGo with
    | 0 => decide (reg64 d (ra pgUpd 0x114) = blk)
    | 3 => standby d
    | _ => decide (d.upd.mcBlock ≤ blk)

/-- The microcode changes: the camera lines of the present system block are taken in as gap lines, and a standby part
falls out of step (R538, R643). -/
def microcodeChange (d : Dev) : Dev :=
  if !mcDue d then d
  else
    let blk := d.pos.sysLine / 256
    let d := setReg d (ra pgBoot 0x110) (BitVec.ofNat 32 d.upd.mcNew)
    let d := { pokeBit d (ra pgBoot 0x100) 16 false with
      paused := if d.paused.contains blk then d.paused else blk :: d.paused, upd := { d.upd with mcGo := 0 } }
    unsync (setStatus d .mcDone)

/-! ### Stores the host writes (R649, R650) -/

/-- UPD_CTRL.FREEZE_RECIPE (R650). -/
def freezeRecipe (d : Dev) (m : Mem) : Dev × Mem :=
  match flashRefusal d with
  | some st => (setStatus d st, m)
  | none =>
    let body := captureRecipe d m
    if Store.frozen.size < 64 + body.length then (setStatus d .recipeTooLarge, m)
    else (setStatus d .ok, writeCopy m .frozen 0 body)

/-- The settings copy in the update window, under the header of R652 of which MAGIC, SCHEMA, length and CRC of the body
count (R649, DEDUCED, log 56). -/
def windowCopy (m : Mem) : Option JCopy :=
  let w := fun o => ofLeBytes (mread zeroByte m.win o 4)
  let body := mread zeroByte m.win 64 (Nat.min (w 8) (65536 - 64))
  if w 0 % 65536 = Store.settings.magic ∧ w 8 ≤ 65536 - 64 ∧ w 0xC = crc32c body then
    some { schema := w 0 / 65536, body := body }
  else none

/-- UPD_CTRL.SETTINGS_WRITE: a migrated copy is checked, written, and applied 64 lines ahead (R649). -/
def settingsWrite (d : Dev) (m : Mem) (b : Boot) : Dev × Mem :=
  match flashRefusal d with
  | some st => (setStatus d st, m)
  | none =>
    match windowCopy m with
    | none => (setStatus d .badArg, m)
    | some c =>
      if c.schema < d.img.schemaMin ∨ d.img.schema < c.schema then (setStatus d .badArg, m)
      else
        let m := writeCopy m .settings c.schema c.body
        let d := poke (pokeBit d (ra pgBoot 0x100) 17 false) (ra pgBoot 0x114) 31 16 c.schema
        let n := d.pos.sysLine + 64
        let r := applyAhead d m b (settingsEntries c)
        (setStatus { r.1 with upd := { r.1.upd with settledAt := none, settleLine := some n } } .ok, r.2)

/-! ### Writes of the UPD page (R656) -/

/-- An operation of source 1. -/
def pcieReq : UpdRequest := { source := 1, token := 0, offset := 0, crc := 0, payload := [] }

/-- A write of UPD_SESSION: OPEN, then CLOSE, then ABORT. -/
def sessionWrite (d : Dev) (m : Mem) (b : Boot) (v : Word) : Dev × Mem × Boot :=
  let r := if bitOf v 31 then openSess d m b pcieReq else (d, m, b)
  let r := if bitOf v 30 then closeSess r.1 r.2.1 r.2.2 pcieReq else r
  if bitOf v 29 then (abortSess r.1 pcieReq, r.2.1, r.2.2) else r

/-- A write of UPD_CTRL, in the order of its bits; while BUSY it is discarded, and in recovery only PROGRAM acts (R628,
R656). -/
def ctrlWord (d : Dev) (m : Mem) (b : Boot) (v : Word) : Dev × Mem × Boot :=
  if d.restart then (d, m, b)
  else
    let p := if bitOf v 31 then programWindow d m b else (d, m)
    if d.life ≠ .up then (p.1, p.2, b)
    else
      let r := if bitOf v 30 then activateImage p.1 p.2 b pcieReq (bitOf v 26) else (p.1, p.2, b)
      if r.1.restart then r
      else
        let d := if bitOf v 29 then mcGoWrite r.1 else r.1
        let q := if bitOf v 28 then freezeRecipe d r.2.1 else (d, r.2.1)
        let q := if bitOf v 27 then settingsWrite q.1 q.2 r.2.2 else q
        (q.1, q.2, r.2.2)

/-- A write of a word of the UPD page beyond its header. -/
def updPageWrite (d : Dev) (m : Mem) (b : Boot) (o : Nat) (v : Word) : Dev × Mem × Boot :=
  if o = 0x104 then sessionWrite d m b v
  else if o = 0x110 then ctrlWord d m b v
  else (storeReg d (ra pgUpd o) v, m, b)

end Sys2Proof.Machine
end

