-- ==== Sys2Proof/Machine/HostTop.lean ====
section
/-!
DEFINITION. The host's accesses as they reach the part: what is mapped, what a part that does not run answers, what is
mirrored to the twin, and what waits (R428, R519 to R521, R575, R626, R628, R667, R668).
-/

namespace Sys2Proof.Machine

/-! ### Mirroring (R520, R521) -/

/-- The part mirrors what its host writes: it is active, with a twin (R517, R520). -/
def mirrorOn (d : Dev) : Bool := pairEn d && (decide (pairState d = 4) || decide (pairState d = 5))

/-- The pages whose act-on-write registers are mirrored (R521). -/
def mirrorPage (pg : Nat) : Bool :=
  decide (pg = pgPos) || decide (0x10 ≤ pg ∧ pg < 0x1A) || decide (0x20 ≤ pg ∧ pg < 0x30) || decide (0x100 ≤ pg ∧ pg < 0x200) ||
    [pgColdesc, pgStitch, pgTrk, pgBorder, pgHist, pgFab, pgPtp, pgTime].contains pg

/-- Written bits that act and are stored nowhere, by page and offset. -/
def goBits (pg o : Nat) : Word :=
  if o = 0x008 then 0x40000000
  else if (laneOf pg o).isSome ∨ (pg = pgEnc 0 ∧ o = 0x180) ∨ (pg = pgTrk ∧ o = 0x180) ∨ (pg = pgFab ∧ (o = 0x13C ∨ o = 0x158)) then
    0x80000000
  else if pg = pgTrk ∧ o = 0x100 then 0x40000000
  else 0

/-- The bits of a register that hold what is written. -/
def heldBits (pg o : Nat) : Word :=
  ((regRow (ra pg o)).map (fun r => r.1.rw)).getD 0 ||| (if o = 0x008 ∧ isRandPage pg then 1 else 0)

/-- A write that only clears counters or W1C bits, or does nothing (R521). -/
def onlyClears (d : Dev) (pg o : Nat) (v : Word) : Bool :=
  let r := (regRow (ra pg o)).map (fun x => x.1)
  let w1s := (r.map (fun x => x.w1s)).getD 0
  let clears := (r.map (fun x => x.clr)).getD 0 ||| (v &&& (r.map (fun x => x.w1c)).getD 0)
  let rw := heldBits pg o
  decide (v &&& (w1s ||| goBits pg o) = 0) &&
    (decide (rw = 0) || (decide (clears ≠ 0) && decide ((reg d (ra pg o) ^^^ v) &&& rw = 0))) &&
    !(pg == pgBorder && decide (o = 0x114 ∨ o = 0x118))

/-- How a write of a register reaches the twin: not at all, as it is made, or at a line to come (R520, R521). -/
inductive WriteKind where
  | alone
  | now
  | later
  deriving DecidableEq, Repr

/-- The registers whose effect reaches the standby through the time it follows (R521). -/
def timeAlone (a : Nat) : Bool := [timeA 0x120, timeA 0x124, timeA 0x138].contains a

/-- The kind of a write of `v` at BAR0 offset `a`: shadow registers and the arming of a page go at once (R520), what acts
on write on the pages of R521 at a line. -/
def writeKind (d : Dev) (a : Nat) (v : Word) : WriteKind :=
  let pg := a / 4096
  let o := a % 4096
  if shadowMask a ≠ 0 ∨ ((o = 0x028 ∨ o = 0x02C ∨ o = 0x030) ∧ isShadowPage pg) then .now
  else if mirrorPage pg && !timeAlone a && !onlyClears d pg o v then .later
  else .alone

/-- A MIRROR frame leaves (R541). -/
def sendMirror (d : Dev) (bar2 : Bool) (off : Nat) (vals : List Word) (line : Option Nat) : Dev :=
  let seq := (d.pair.mirTx + 1) % 2 ^ 32
  let body := vals.map (fun v => v.setWidth 64)
  let at' := match line with
    | none => body
    | some n => BitVec.ofNat 64 n :: body
  sendPair (setPair d { d.pair with mirTx := seq })
    (dpack [(60, 4, 3), (52, 1, line.isSome.toNat), (48, 4, vals.length), (0, 32, seq)] ::
      dpack [(63, 1, bar2.toNat), (0, 30, off)] :: at')

/-- A write made on this part alone; UPD has operations of its own. -/
def localWord (d : Dev) (m : Mem) (b : Boot) (a : Nat) (v : Word) : Dev × Mem × Boot :=
  if a / 4096 = pgUpd ∧ 0x100 ≤ a % 4096 then updPageWrite d m b (a % 4096) v
  else
    let r := writeWord d m b a v
    (r.1, r.2, b)

/-- An arming on the active part waits for the twin's acknowledgement of the MIRROR frame that tells of it (R520). -/
def armWaits (d : Dev) (a : Nat) (v : Word) : Dev :=
  if a % 4096 = 0x028 ∧ bitOf v 30 ∧ !(armOf d (a / 4096)).armed then
    let seq := (d.pair.mirTx + 1) % 2 ^ 32
    setPair d { d.pair with armAcked := d.pair.armAcked.filter (fun g => decide (g ≠ a / 4096)),
                            armSent := (seq, a / 4096) :: d.pair.armSent.filter (fun x => decide (x.2 ≠ a / 4096)) }
  else d

/-- A host write of an aligned word of a mapped page, as the part's place in a Pairing has it (R519 to R521). -/
def hostWord (d : Dev) (m : Mem) (b : Boot) (a : Nat) (v : Word) : Dev × Mem × Boot :=
  let k := writeKind d a v
  if standby d && decide (k ≠ .alone) then (pokeBit d (pairA 0x104) 23 true, m, b)
  else if !mirrorOn d then localWord d m b a v
  else
    match k with
    | .alone => localWord d m b a v
    | .now =>
      let r := localWord (armWaits d a v) m b a v
      (sendMirror r.1 false a [v] none, r.2)
    | .later =>
      let n := d.pos.sysLine + 16
      let d := sendMirror d false a [v] (some n)
      (setPair d { d.pair with held := d.pair.held ++ [{ seq := d.pair.mirTx, off := a, vals := [v], line := some n }] }, m, b)

/-! ### BAR2 -/

/-- The tables of BAR2: the wale windows and the QDR window (R520, R666). -/
def isTable (o : Nat) : Bool := decide (o < 0x10000000)

/-- The 32-bit words of BAR2 that `n` bytes from `o` touch, by offset. -/
def wordsOf (o n : Nat) : List Nat := (List.range ((o % 4 + n + 3) / 4)).map (fun i => o - o % 4 + 4 * i)

/-- MIRROR frames of table words as they now read, 14 at a time. -/
def mirrorTable : Nat → List Nat → Mem → Dev → Dev
  | 0, _, _, d => d
  | k + 1, os, m, d =>
    match os with
    | [] => d
    | o :: _ =>
      let vals := (os.take 14).map (fun x => BitVec.ofNat 32 (ofLeBytes ((List.range 4).map (fun i => barByte d m (x + i)))))
      mirrorTable k (os.drop 14) m (sendMirror d true o vals none)

/-- A host write through BAR2 (R520, R666). -/
def hostBar2 (d : Dev) (m : Mem) (o : Nat) (bs : List Byte) : Dev × Mem :=
  if isTable o && standby d then (pokeBit d (pairA 0x104) 23 true, m)
  else
    let r := barWrite d m o bs
    if isTable o && mirrorOn d then
      let os := wordsOf o bs.length
      (mirrorTable os.length os r.2 r.1, r.2)
    else r

/-! ### Accesses (R667) -/

/-- A page of BAR0 is mapped (R665). -/
def mapped (a : Nat) : Bool := (pageInfo (a / 4096)).isSome

/-- ACCESS_ERR on the page at `a` (R667). -/
def accessErr (d : Dev) (a : Nat) : Dev := pokeBit d (ra (a / 4096) 0x008) 7 true

/-- What a read returns that nothing answers (R667). -/
def allOnes (n : Nat) : List Byte := List.replicate n 0xFF

/-- A write of `n` bytes at `a` that is discarded, or a read of as many that returns all ones (R667). -/
def badBar0 (d : Dev) (write : Bool) (a n : Nat) : Dev :=
  let d := if mapped a then accessErr d a else badAccess d write false a
  if write then d else emit d (.readAnswer false a (allOnes n))

/-- Little-endian bytes of a word. -/
def wordBytes (w : Word) : List Byte := leBytes 4 w.toNat

/-- An access of a running part (R667, R668). -/
def accessUp (d : Dev) (m : Mem) (b : Boot) (x : HostAccess) : Dev × Mem × Boot :=
  match x with
  | .bar0Write a v be => if mapped a && decide (a % 4 = 0) && be == 0xF then hostWord d m b a v else (badBar0 d true a 4, m, b)
  | .bar0Write64 a v =>
    if mapped a && decide (a % 8 = 0) then
      let r := hostWord d m b a (v.setWidth 32)
      hostWord r.1 r.2.1 r.2.2 (a + 4) ((v >>> 32).setWidth 32)
    else (badBar0 d true a 8, m, b)
  | .bar0Read a =>
    if mapped a && decide (a % 4 = 0) then
      let r := readWord d b a
      (emit r.1 (.readAnswer false a (wordBytes r.2)), m, b)
    else (badBar0 d false a 4, m, b)
  | .bar0Read64 a =>
    if mapped a && decide (a % 8 = 0) then
      let r := readWord d b a
      let q := readWord r.1 b (a + 4)
      (emit q.1 (.readAnswer false a (wordBytes r.2 ++ wordBytes q.2)), m, b)
    else (badBar0 d false a 8, m, b)
  | .bar2Write o bs =>
    match barWindow o with
    | none => (badAccess d true true o, m, b)
    | some _ =>
      let r := hostBar2 d m o bs
      (r.1, r.2, b)
  | .bar2Read o n =>
    match barWindow o with
    | none => (emit (badAccess d false true o) (.readAnswer true o (allOnes n)), m, b)
    | some w =>
      let d := if w = 17 then touchLpx d (aperture d (o - 0x10000000)) n else d
      (emit d (.readAnswer true o ((List.range n).map (fun i => barByte d m (o + i)))), m, b)

/-- An access of a part in Upsett or recovery: only BOOT and UPD answer; in recovery the other pages read 0 and ignore
writes, and the update window is served (R626, R628). -/
def accessBoot (d : Dev) (m : Mem) (b : Boot) (x : HostAccess) : Dev × Mem × Boot :=
  let rec' := decide (d.life = .recovery)
  let open' := fun (a : Nat) => a / 4096 = pgBoot ∨ a / 4096 = pgUpd
  let silent := fun (a n : Nat) => emit d (.readAnswer false a (if rec' then List.replicate n 0 else []))
  match x with
  | .bar0Write a v be => if open' a then (if a % 4 = 0 ∧ be = 0xF then localWord d m b a v else (badBar0 d true a 4, m, b)) else (d, m, b)
  | .bar0Write64 a v =>
    if open' a then
      if a % 8 = 0 then
        let r := localWord d m b a (v.setWidth 32)
        localWord r.1 r.2.1 r.2.2 (a + 4) ((v >>> 32).setWidth 32)
      else (badBar0 d true a 8, m, b)
    else (d, m, b)
  | .bar0Read a => if open' a then accessUp d m b x else (silent a 4, m, b)
  | .bar0Read64 a => if open' a then accessUp d m b x else (silent a 8, m, b)
  | .bar2Write o bs =>
    if rec' ∧ barWindow o = some 18 then
      let r := barWrite d m o bs
      (r.1, r.2, b)
    else (d, m, b)
  | .bar2Read o n =>
    let data := if rec' ∧ barWindow o = some 18 then (List.range n).map (fun i => barByte d m (o + i)) else []
    (emit d (.readAnswer true o data), m, b)

/-- The access waits for LPDDR5X to leave self-refresh (R428, R666). -/
def waitsLpx (d : Dev) (x : HostAccess) : Bool :=
  match x with
  | .bar2Write o _ => lpxWaits d && decide (barWindow o = some 17)
  | .bar2Read o _ => lpxWaits d && decide (barWindow o = some 17)
  | _ => false

/-- An access waits. -/
def holdAccess (d : Dev) (x : HostAccess) : Dev := { d with pwr := { d.pwr with held := d.pwr.held ++ [x] } }

/-- One access: of a part held in reset nothing comes, and one of a sleeping part waits (R575, R624). -/
def accessOnce (d : Dev) (m : Mem) (b : Boot) (x : HostAccess) : Dev × Mem × Boot :=
  match d.life with
  | .up => if waitsLpx d x then (holdAccess d x, m, b) else accessUp d m b x
  | .asleep => (holdAccess d x, m, b)
  | .recovery => accessBoot d m b x
  | .held k => if k = 2 then accessBoot d m b x else (d, m, b)

/-- Accesses that waited are carried out, in order, once they need wait no longer. -/
def drainHeld (r : Dev × Mem × Boot) : Dev × Mem × Boot :=
  let xs := r.1.pwr.held
  if xs.isEmpty || decide (r.1.life ≠ .up) || lpxWaits r.1 then r
  else xs.foldl (fun q x => accessOnce q.1 q.2.1 q.2.2 x) ({ r.1 with pwr := { r.1.pwr with held := [] } }, r.2)

/-- An access of the host. -/
def hostAccess (d : Dev) (m : Mem) (b : Boot) (x : HostAccess) : Dev × Mem × Boot := drainHeld (accessOnce d m b x)

/-- A host write of one whole register. -/
def hostWrite (d : Dev) (m : Mem) (b : Boot) (a : Nat) (v : Word) : Dev × Mem × Boot :=
  hostAccess d m b (.bar0Write a v 0xF)

/-- The part wakes, and what the host sent meanwhile is carried out (R575, R576). -/
def wakeWith (b : Boot) (r : Dev × Mem) : Dev × Mem × Boot := drainHeld (r.1, r.2, b)

end Sys2Proof.Machine
end

