-- ==== Sys2Proof/Machine/Run.lean ====
section
/-!
DEFINITION. The frame of a command's meaning: what it changes of the state, and that a part which is held in reset,
asleep or in recovery takes no part in it (R65, R574, R595, R628).
-/

namespace Sys2Proof.Machine

/-- A command that changes the running part only; it does nothing while the part does not run. -/
def runDev (s : State) (f : Dev → Dev) : Host.Outcome State Fault Refusal :=
  .next (if s.dev.life = .up then { s with dev := f s.dev } else s)

/-- A command that changes the running part and the byte memories; it does nothing while the part does not run. -/
def runMem (s : State) (f : Dev → Mem → Dev × Mem) : Host.Outcome State Fault Refusal :=
  .next (if s.dev.life = .up then { s with dev := (f s.dev s.mem).1, mem := (f s.dev s.mem).2 } else s)

/-- Records still leave: the part runs, or it has lost the root lock, whose holdover lets those queued be sent (R65). -/
def sending (s : State) : Bool := decide (s.dev.life = .up) || decide (s.dev.life = .held 1)

/-- A command of the output path that changes the part only. -/
def sendDev (s : State) (f : Dev → Dev) : Host.Outcome State Fault Refusal :=
  .next (if sending s then { s with dev := f s.dev } else s)

/-- A command of the output path that changes the part and the byte memories. -/
def sendMem (s : State) (f : Dev → Mem → Dev × Mem) : Host.Outcome State Fault Refusal :=
  .next (if sending s then { s with dev := (f s.dev s.mem).1, mem := (f s.dev s.mem).2 } else s)

/-- A command that changes the running part, whether it runs or not. -/
def anyDev (s : State) (f : Dev → Dev) : Host.Outcome State Fault Refusal := .next { s with dev := f s.dev }

/-- A command that changes the running part and the byte memories, whether the part runs or not. -/
def anyMem (s : State) (f : Dev → Mem → Dev × Mem) : Host.Outcome State Fault Refusal :=
  .next { s with dev := (f s.dev s.mem).1, mem := (f s.dev s.mem).2 }

/-- A command that may also change what outlives a reset. -/
def anyState (s : State) (f : Dev → Mem → Boot → Dev × Mem × Boot) : Host.Outcome State Fault Refusal :=
  .next { s with dev := (f s.dev s.mem s.boot).1, mem := (f s.dev s.mem s.boot).2.1, boot := (f s.dev s.mem s.boot).2.2 }

end Sys2Proof.Machine
end

