-- ==== Sys2Proof/Machine/CmdBoot.lean ====
section
/-!
DEFINITION. The meanings of the commands of reset, Upsett, field update and waking (R65, R66, R575, R596, R601, R624 to R656,
R677).
-/

namespace Sys2Proof.Machine

/-- A command of a part that runs, which may also change what outlives a reset. -/
def upState (s : State) (f : Dev → Mem → Boot → Dev × Mem × Boot) : Host.Outcome State Fault Refusal :=
  anyState s (fun d m b => if d.life = .up then f d m b else (d, m, b))

/-! ### Resets -/

/-- POWER_ON_RESET, with the straps and pins on release (R624 to R627, R677, R683). -/
def execPowerOnReset (side testEn refRootOk twinOk twinAct : Bool) (s : State) : Host.Outcome State Fault Refusal :=
  anyState s (fun d m b => powerOn d m b side testEn refRootOk twinOk twinAct)

/-- SUPPLY_RAIL_LOSS of a rail (R677). -/
def execSupplyRailLoss (rail : Fin 12) (s : State) : Host.Outcome State Fault Refusal :=
  anyState s (fun d m b => railLost d m b rail)

/-- WARM_RESET: RESET_N low (R624). -/
def execWarmReset (s : State) : Host.Outcome State Fault Refusal := anyState s (fun d m b => warmReset d m b 1)

/-- WATCHDOG_EXPIRY (R646). -/
def execWatchdogExpiry (s : State) : Host.Outcome State Fault Refusal := upState s watchdog

/-- TRIP_RELEASE_CHECK (R596). -/
def execTripReleaseCheck (s : State) : Host.Outcome State Fault Refusal := anyState s tripRelease

/-- ROOT_LOCK_RETURNS (R65). -/
def execRootLockReturns (s : State) : Host.Outcome State Fault Refusal := anyState s rootLockBack

/-- REF_ROOT_OK (R66, R677). -/
def execRefRootOk (s : State) : Host.Outcome State Fault Refusal := anyState s refRootBack

/-! ### Waking (R575, R576) -/

/-- A rising edge at a slot that feeds WAKE (R548 to R552, R560, R575). -/
def wakeEdge (d : Dev) (m : Mem) (slot : Nat) : Dev × Mem :=
  let r := slotEdge d slot 0x022 (targetBusy d 0x022)
  if r.2 then wakeFire r.1 m 0 else (r.1, m)

/-- WAKE: Wicker keeps working in deep sleep (R560, R575). -/
def execWake (slot : Fin 96) (s : State) : Host.Outcome State Fault Refusal :=
  anyState s (fun d m b => if d.life = .up ∨ d.life = .asleep then wakeWith b (wakeEdge d m slot) else (d, m, b))

/-- HOST_WAKE: the link is in L1 in deep sleep only (R574, R575). -/
def execHostWake (s : State) : Host.Outcome State Fault Refusal :=
  anyState s (fun d m b => if d.life = .asleep then wakeWith b (wakeFire d m 1) else (d, m, b))

/-- TIMER_WAKE (R575). -/
def execTimerWake (s : State) : Host.Outcome State Fault Refusal :=
  anyState s (fun d m b => if d.life = .asleep then wakeWith b (timerWake d m) else (d, m, b))

/-- MOTION_WAKE (R575). -/
def execMotionWake (s : State) : Host.Outcome State Fault Refusal :=
  anyState s (fun d m b => if d.life = .up ∨ d.life = .asleep then wakeWith b (motionWake d m) else (d, m, b))

/-! ### Ageing and good starts -/

/-- Another 720 powered hours have gone by: the readings are appended, by Benath and so not while it restarts (R601,
R641). -/
def ageTurn (d : Dev) (m : Mem) (b : Boot) : Dev × Mem × Boot :=
  let b := { b with ageRuns := b.ageRuns + 1 }
  (d, if d.restart then m else ageAppend d m b, b)

/-- AGEING_APPEND (R601). -/
def execAgeingAppend (s : State) : Host.Outcome State Fault Refusal := upState s ageTurn

/-- GOOD_START (R645). -/
def execGoodStart (s : State) : Host.Outcome State Fault Refusal := upState s goodStart

/-- MANAGEMENT_RESTART_DONE (R641, R648). -/
def execManagementRestartDone (s : State) : Host.Outcome State Fault Refusal :=
  upState s (fun d m b =>
    let r := endRestart d m b
    (r.1, r.2, b))

/-! ### Field update: PCIe acts through UPD_SESSION and UPD_CTRL, other sources by messages (R636 to R656) -/

/-- A write of UPD_SESSION. -/
def sessionRow (s : State) (v : Word) : Host.Outcome State Fault Refusal :=
  anyState s (fun d m b => hostWrite d m b (ra pgUpd 0x104) v)

/-- A write of UPD_CTRL. -/
def ctrlRow (s : State) (v : Word) : Host.Outcome State Fault Refusal :=
  anyState s (fun d m b => hostWrite d m b (ra pgUpd 0x110) v)

/-- OPEN (R636, R638). -/
def execUpdOpen (r : UpdRequest) (s : State) : Host.Outcome State Fault Refusal :=
  if r.source = 1 then sessionRow s 0x80000000 else anyState s (fun d m b => openSess d m b r)

/-- WRITE: only messages carry it (R637). -/
def execUpdWrite (r : UpdRequest) (s : State) : Host.Outcome State Fault Refusal :=
  anyMem s (fun d m => if r.source = 1 then (d, m) else writeSess d m s.boot r)

/-- PROGRAM (R638). -/
def execProgram (s : State) : Host.Outcome State Fault Refusal := ctrlRow s 0x80000000

/-- CLOSE (R639). -/
def execClose (r : UpdRequest) (s : State) : Host.Outcome State Fault Refusal :=
  if r.source = 1 then sessionRow s 0x40000000 else anyState s (fun d m b => closeSess d m b r)

/-- ABORT (R639). -/
def execAbort (r : UpdRequest) (s : State) : Host.Outcome State Fault Refusal :=
  if r.source = 1 then sessionRow s 0x20000000 else anyDev s (fun d => abortSess d r)

/-- STATUS: only messages ask for it; PCIe reads UPD_SESSION (R637). -/
def execStatus (r : UpdRequest) (s : State) : Host.Outcome State Fault Refusal :=
  anyDev s (fun d => if r.source = 1 then d else statusSess d r)

/-- SESSION_TIMEOUT (R639). -/
def execSessionTimeout (s : State) : Host.Outcome State Fault Refusal :=
  anyDev s (fun d => if d.life = .up ∨ d.life = .recovery then timeoutSess d s.mem s.boot else d)

/-- ACTIVATE; FORCE stands in UPD_CTRL (R640, R641). -/
def execActivate (r : UpdRequest) (force : Bool) (s : State) : Host.Outcome State Fault Refusal :=
  if r.source = 1 then ctrlRow s (if force then 0x44000000 else 0x40000000)
  else anyState s (fun d m b => activateImage d m b r force)

/-- MC_GO (R642, R644). -/
def execMcGo (s : State) : Host.Outcome State Fault Refusal := ctrlRow s 0x20000000

/-- MICROCODE_CHANGE (R643). -/
def execMicrocodeChange (s : State) : Host.Outcome State Fault Refusal := runDev s microcodeChange

/-- FREEZE_RECIPE (R650). -/
def execFreezeRecipe (s : State) : Host.Outcome State Fault Refusal := ctrlRow s 0x10000000

/-- SETTINGS_WRITE (R649). -/
def execSettingsWrite (s : State) : Host.Outcome State Fault Refusal := ctrlRow s 0x08000000

end Sys2Proof.Machine
end

