-- ==== Sys2Proof/Machine/CmdBorder.lean ====
section
/-!
DEFINITION. The meanings of the commands of Border: records, patches, datagrams and coalesced messages (R337 to R367).
-/

namespace Sys2Proof.Machine

/-- RECORD_INTAKE (R331, R337 to R349). -/
def execRecordIntake (s : State) : Host.Outcome State Fault Refusal := sendMem s (fun d m => intake d m)

/-- RECORD_DELIVERY to destination `dd` (R340 to R343, R347). -/
def execRecordDelivery (dd : Fin 4) (s : State) : Host.Outcome State Fault Refusal :=
  sendMem s (fun d m => deliver d m dd)

/-- The first pending refinement ends (R347). -/
def refineTimeout (d : Dev) (m : Mem) (b : Boot) : Dev :=
  match refineDue d with
  | none => d
  | some t => refineExpire (elapse d m b t)

/-- REFINE_TIMEOUT (R347). -/
def execRefineTimeout (s : State) : Host.Outcome State Fault Refusal :=
  sendDev s (fun d => refineTimeout d s.mem s.boot)

/-- PATCH_WRITE (R349 to R351). -/
def execPatchWrite (s : State) : Host.Outcome State Fault Refusal := sendMem s (fun d m => patchWrite d m)

/-- Whether destination `dd` may send datagrams now (R343, R519). -/
def mayStream (d : Dev) (dd : Nat) : Bool := destOn d dd && destRoom d dd && !pairMuted d

/-- A datagram of destination `dd` leaves: the queued records when they are due, or the next part of a resend (R365,
R367). -/
def datagramSend (d : Dev) (m : Mem) (b : Boot) (dd : Nat) : Dev :=
  if !mayStream d dd then d
  else
    match datagramDue d dd with
    | some t => if (dest d dd).resend.isSome ∧ d.cycle < t then sendResent d dd else sendQueued (elapse d m b t) dd
    | none => sendResent d dd

/-- DATAGRAM_SEND of Ethernet port `port` (R365, R367). -/
def execDatagramSend (port : Fin 2) (s : State) : Host.Outcome State Fault Refusal :=
  sendDev s (fun d => datagramSend d s.mem s.boot (1 + port))

/-- No datagram has left for HEARTBEAT ms: one with a fill record does (R366). -/
def heartbeatDatagram (d : Dev) (m : Mem) (b : Boot) (dd : Nat) : Dev :=
  let ms := rf d (destA dd 0x2C) 15 0
  if ms = 0 ∨ !mayStream d dd then d
  else
    let d := elapse d m b ((dest d dd).sentAt + usCycles (1000 * ms))
    sendDatagram d dd [fillRec d dd] false

/-- HEARTBEAT_DATAGRAM (R366). -/
def execHeartbeatDatagram (port : Fin 2) (s : State) : Host.Outcome State Fault Refusal :=
  runDev s (fun d => heartbeatDatagram d s.mem s.boot (1 + port))

/-- UDP_RESEND_REQUEST (R367); a destination that sends nothing answers nothing. -/
def execUdpResendRequest (port : Fin 2) (fromDst : Bool) (payload : List Byte) (s : State) :
    Host.Outcome State Fault Refusal :=
  runDev s (fun d => if mayStream d (1 + port) then resendRequest d (1 + port) fromDst payload else d)

/-- COAL.TIME passes for a vector (R363). -/
def coalTime (d : Dev) (m : Mem) (b : Boot) (v : Nat) : Dev :=
  let c := tget (fun _ => ((0, 0) : Nat × Nat)) d.hif.coal v
  if c.1 = 0 then d
  else coalTimeout (elapse d m b (c.2 + usCycles (rf d (ringA (vectorRing v) 0x20) 15 0))) v

/-- COAL_TIME (R363). -/
def execCoalTime (vector : Fin 4) (s : State) : Host.Outcome State Fault Refusal :=
  sendDev s (fun d => coalTime d s.mem s.boot vector)

/-- ETHERNET_LINK_DOWN (R343, R509). -/
def execEthernetLinkDown (port : Fin 2) (s : State) : Host.Outcome State Fault Refusal :=
  runDev s (fun d => { d with ethUp := d.ethUp.filter (fun p => decide (p ≠ port.val)) })

/-- ETHERNET_LINK_UP (R343). -/
def execEthernetLinkUp (port : Fin 2) (s : State) : Host.Outcome State Fault Refusal :=
  runDev s (fun d => if d.ethUp.contains port.val then d else { d with ethUp := isortIns (fun a b => decide (a ≤ b)) port.val d.ethUp })

end Sys2Proof.Machine
end

