-- ==== Sys2Proof/Machine/CmdCamera.lean ====
section
/-!
DEFINITION. The meanings of the commands of camera ports, and of the lanes of skeins and Limileri ports (R132 to R167,
R447, R448).
-/

namespace Sys2Proof.Machine

/-- LANE_LOCK (R132, R134, R136). -/
def execLaneLock (n : Fin 16) (lane : Fin 6) (skew : Nat) (s : State) : Host.Outcome State Fault Refusal :=
  runDev s (fun d => laneLock d n lane skew)

/-- LANE_LOCK_LOSS (R132, R136, R137). -/
def execLaneLockLoss (n : Fin 16) (lane : Fin 6) (s : State) : Host.Outcome State Fault Refusal :=
  runDev s (fun d => laneLoss d s.mem n lane)

/-- SLIP (R135). -/
def execSlip (n : Fin 16) (lane : Fin 6) (s : State) : Host.Outcome State Fault Refusal :=
  runDev s (fun d => laneSlip d s.mem n lane)

/-- LINE_START (R143, R148, R149, R152); a part that is stopping refuses new lines (R65, R595). -/
def execLineStart (n : Fin 16) (h : Header) (s : State) : Host.Outcome State Fault Refusal :=
  runDev s (fun d => if d.stopped then d else lineStart d s.mem s.boot n h)

/-- VIDEO_PACKET (R143, R145, R147, R151, R152). -/
def execVideoPacket (n : Fin 16) (p : Packet) (s : State) : Host.Outcome State Fault Refusal :=
  runDev s (fun d => videoPacket d s.mem n p)

/-- LINE_END (R146, R153 to R156). -/
def execLineEnd (n : Fin 16) (s : State) : Host.Outcome State Fault Refusal := runDev s (fun d => lineEnd d s.mem n)

/-- LINE_MISSING (R144). -/
def execLineMissing (n : Fin 16) (s : State) : Host.Outcome State Fault Refusal :=
  runDev s (fun d => lineMissing d s.mem s.boot n)

/-- LINE_TIMEOUT (R145). -/
def execLineTimeout (n : Fin 16) (s : State) : Host.Outcome State Fault Refusal :=
  runDev s (fun d => lineTimeout d s.mem s.boot n)

/-- RESEND_EXPIRY (R152). -/
def execResendExpiry (n : Fin 16) (s : State) : Host.Outcome State Fault Refusal :=
  runDev s (fun d => resendExpiry d s.mem s.boot n)

/-- CAMERA_STALL (R148). -/
def execCameraStall (n : Fin 16) (s : State) : Host.Outcome State Fault Refusal :=
  runDev s (fun d => cameraStall d s.mem s.boot n)

/-- GPIO_MESSAGE (R140). -/
def execGpioMessage (n : Fin 16) (levels : BitVec 4) (s : State) : Host.Outcome State Fault Refusal :=
  runDev s (fun d => gpioIn d n levels.toNat)

/-- STATUS_MSG (R141). -/
def execStatusMsg (n : Fin 16) (payload : Word) (s : State) : Host.Outcome State Fault Refusal :=
  runDev s (fun d => camStatus d n payload)

/-- CAM_GPOUT (R140). -/
def execCamGpout (n : Fin 16) (k : Fin 4) (level carried : Bool) (s : State) : Host.Outcome State Fault Refusal :=
  runDev s (fun d => camGpout d n k level carried)

/-- SCAN_START (R165). -/
def execScanStart (l : LaneId) (s : State) : Host.Outcome State Fault Refusal := runDev s (fun d => scanStart d l)

/-- SCAN_DONE (R165, R166, R448). -/
def execScanDone (l : LaneId) (r : EyeResult) (s : State) : Host.Outcome State Fault Refusal :=
  runDev s (fun d => scanDone d l r)

/-- CTLE_DFE_UPDATE (R78 to R82, R164, R447). -/
def execCtleDfeUpdate (l : LaneId) (loop : EqLoop) (computed : Int) (s : State) : Host.Outcome State Fault Refusal :=
  runDev s (fun d => eqUpdate d l loop computed)

end Sys2Proof.Machine
end

