-- ==== Sys2Proof/Machine/CmdEncoder.lean ====
section
/-!
DEFINITION. The meanings of the commands of encoders, compare units and trigger outputs (R93 to R130, R548 to R551).
-/

namespace Sys2Proof.Machine

/-- ENCODER_EDGE: the inputs of a channel are held at a pair of levels for a number of samples (R93 to R97). -/
def execEncoderEdge (c : Fin 4) (a b : Bool) (samples : Nat) (s : State) : Host.Outcome State Fault Refusal :=
  runDev s (fun d => encBatch d s.mem s.boot c a b samples)

/-- DUE_INSTANT (R117). -/
def execDueInstant (u : Fin 24) (s : State) : Host.Outcome State Fault Refusal :=
  runDev s (fun d => dueInstant d s.mem s.boot u)

/-- LATE_PULSE (R122). -/
def execLatePulse (u : Fin 24) (s : State) : Host.Outcome State Fault Refusal :=
  runDev s (fun d => latePulse d s.mem s.boot u)

/-- TIMER_TRIGGER (R123). -/
def execTimerTrigger (nn : Fin 16) (s : State) : Host.Outcome State Fault Refusal :=
  runDev s (fun d => timerTrigger d s.mem s.boot nn)

/-- Output `nn` takes its triggers from its Wicker consumer (R123). -/
def trigByWicker (d : Dev) (nn : Nat) : Bool := decide (ff d (trgA nn 0) 28 27 = 2)

/-- The trigger of consumer TRIG_nn, on the second edge after its input rises; the consumer is busy while the pin
pulse lasts and for 667 cycles (R548, R551). -/
def wickerTrigger (d : Dev) (m : Mem) (b : Boot) (nn : Nat) : Dev :=
  let d := elapse d m b (d.cycle + 2)
  if trigByWicker d nn then
    outsideTrigger (setBusy d (1 + nn) (d.cycle + Nat.max 667 (ff d (trgA nn 0) 15 0))) m b nn
  else d

/-- TRIG_NN: a rising edge at a slot that feeds TRIG_nn (R548 to R552). -/
def execTrigNn (nn : Fin 16) (slot : Fin 96) (s : State) : Host.Outcome State Fault Refusal :=
  runDev s (fun d =>
    let r := slotEdge d slot (1 + nn) (targetBusy d (1 + nn))
    if r.2 then wickerTrigger r.1 s.mem s.boot nn else r.1)

/-- LOS (R97). -/
def execLos (c : Fin 6) (s : State) : Host.Outcome State Fault Refusal := runDev s (fun d => setLos d c)

/-- SSI_FRAME of channel 4 or 5 (R101 to R104). -/
def execSsiFrame (c : Fin 2) (f : SsiFrame) (s : State) : Host.Outcome State Fault Refusal :=
  runDev s (fun d => ssiFrame d s.mem s.boot (4 + c) f)

/-- STALE: STALE_N frames in a row have been rejected (R104). -/
def execStale (c : Fin 2) (s : State) : Host.Outcome State Fault Refusal :=
  runDev s (fun d =>
    if counting d (4 + c) && decide (ff d (encA (4 + c) 0x140) 4 0 ≤ (ench d (4 + c)).failRun) then setStale d (4 + c) else d)

/-- INDEX: a rising edge of the filtered index input (R105 to R108). -/
def execIndex (c : Fin 4) (s : State) : Host.Outcome State Fault Refusal :=
  runDev s (fun d => if encOn d c && idxGate d c then takeIndex d c (ench d c).count else d)

/-- IDX_CORR (R109). -/
def execIdxCorr (c : Fin 4) (s : State) : Host.Outcome State Fault Refusal :=
  runDev s (fun d => applyCorr d s.mem s.boot c)

/-- An output instant of the resampler: the end of SPD_PERIOD, or a trigger of OUT_CMP on the present edge (R113). -/
def speedInstant (d : Dev) (m : Mem) (b : Boot) (c : Nat) : Dev :=
  if !(fb d (encA c 0x150) 31 && encOn d c) then d
  else if fb d (encA c 0x150) 29 then
    if (cmpu d (ff d (encA c 0x150) 28 24)).tFire = some d.cycle then speedOut d c else d
  else speedOut (elapse d m b ((ench d c).outAt + (inForce d (encA c 0x154)).toNat)) c

/-- SPEED_OUTPUT (R113, R115). -/
def execSpeedOutput (c : Fin 8) (s : State) : Host.Outcome State Fault Refusal :=
  runDev s (fun d => speedInstant d s.mem s.boot c)

/-- ENC_ALIGN: a rising edge at a slot that feeds ENC_ALIGN, while WICKER_EN is set (R114, R548 to R551). -/
def execEncAlign (slot : Fin 96) (s : State) : Host.Outcome State Fault Refusal :=
  runDev s (fun d =>
    let r := slotEdge d slot 0x020 (targetBusy d 0x020)
    if r.2 && rb d (encA 0 0x180) 0 then alignAll (elapse r.1 s.mem s.boot (d.cycle + 2)) else r.1)

/-- The levels of channel `c` are adopted, and what is left of a spread starts again from now (R97, R103). -/
def recovers (d : Dev) (c : Nat) (a b : Bool) : Dev :=
  if (ench d c).los then spreadBy (clearLos d c a b) c 0 (ench d c).spread.period else d

/-- INPUT_RECOVERS (R97). -/
def execInputRecovers (c : Fin 6) (a b : Bool) (s : State) : Host.Outcome State Fault Refusal :=
  runDev s (fun d => recovers d c a b)

end Sys2Proof.Machine
end

