-- ==== Sys2Proof/Machine/CmdFabric.lean ====
section
/-!
DEFINITION. The meanings of the fabric's commands that are no frame on a port: bring-up, timers, discovery, the relays
and system-wide commits (R442 to R488).
-/

namespace Sys2Proof.Machine

/-- FAB_LINK_ENABLE: a write of FABpp_CFG (R444, R445). -/
def execFabLinkEnable (p : Fin 5) (cfg : Word) (s : State) : Host.Outcome State Fault Refusal :=
  runDev s (fun d => linkEnable d p cfg)

/-- FAB_LINK_UP (R444, R448, R467). -/
def execFabLinkUp (p : Fin 5) (good : BitVec 4) (deskewFail : Bool) (partner : Partner) (s : State) :
    Host.Outcome State Fault Refusal :=
  runDev s (fun d => linkUp d p good.toNat deskewFail partner)

/-- A link not up 5 ms after step 1 begins again (R444). -/
def bringupTimeout (d : Dev) (m : Mem) (b : Boot) (p : Nat) : Dev :=
  if rb d (fabStatA p) 30 && !rb d (fabStatA p) 31 then linkRestart (elapse d m b ((fbp d p).trainAt + 2000000)) p else d

/-- BRINGUP_TIMEOUT (R444). -/
def execBringupTimeout (p : Fin 5) (s : State) : Host.Outcome State Fault Refusal :=
  runDev s (fun d => bringupTimeout d s.mem s.boot p)

/-- FAB_LINK_DOWN (R445, R446, R450). -/
def execFabLinkDown (p : Fin 5) (slip : BitVec 4) (s : State) : Host.Outcome State Fault Refusal :=
  runDev s (fun d => linkLoss d p slip.toNat)

/-- No trailer has left within 200 ns of an acceptance (R456). -/
def ackTimeout (d : Dev) (m : Mem) (b : Boot) (p : Nat) : Dev :=
  match (fbp d p).ackAt with
  | none => d
  | some t => ackSend (elapse d m b (t + 80)) p

/-- ACK (R456). -/
def execAck (p : Fin 5) (s : State) : Host.Outcome State Fault Refusal :=
  runDev s (fun d => ackTimeout d s.mem s.boot p)

/-- 4 µs pass without the oldest unacknowledged frame being acknowledged (R458, R459). -/
def replayTimeout (d : Dev) (m : Mem) (b : Boot) (p : Nat) : Dev :=
  if fabUp d p && !(fbp d p).replay.isEmpty then replayAll (elapse d m b ((fbp d p).oldestAt + 1600)) p else d

/-- REPLAY_TIMEOUT (R458, R459). -/
def execReplayTimeout (p : Fin 5) (s : State) : Host.Outcome State Fault Refusal :=
  runDev s (fun d => replayTimeout d s.mem s.boot p)

/-- 4 µs pass with the expected LSEQ unchanged after a NAK (R457). -/
def nakRepeat (d : Dev) (m : Mem) (b : Boot) (p : Nat) : Dev :=
  if fabUp d p && decide ((fbp d p).nakFor = some (fbp d p).rxSeq) then
    nakAgain (elapse d m b ((fbp d p).nakAt + 1600)) p
  else d

/-- NAK_REPEAT (R457). -/
def execNakRepeat (p : Fin 5) (s : State) : Host.Outcome State Fault Refusal :=
  runDev s (fun d => nakRepeat d s.mem s.boot p)

/-- HELLO_SEND (R463, R464). -/
def execHelloSend (s : State) : Host.Outcome State Fault Refusal := runDev s (fun d => if fabOn d then sendHello d else d)

/-- A node's HELLO frames have been absent for 300 ms (R464). -/
def nodeTimeout (d : Dev) (m : Mem) (b : Boot) (serial : Nat) : Dev :=
  match d.node.seen.find? (fun n => decide (n.serial = serial)) with
  | none => d
  | some n => nodeGone (elapse d m b (n.lastAt + 120000000)) serial

/-- NODE_TIMEOUT of a node, named by its serial number; `node` is its ID (R464). -/
def execNodeTimeout (node : BitVec 6) (serial : Dword) (s : State) : Host.Outcome State Fault Refusal :=
  runDev s (fun d =>
    if d.node.seen.any (fun n => decide (n.serial = serial.toNat) && (!n.idValid || decide (n.id = node.toNat))) then
      nodeTimeout d s.mem s.boot serial.toNat
    else d)

/-- No new serial number has been heard for 10 ms (R465). -/
def election (d : Dev) (m : Mem) (b : Boot) : Dev :=
  if fabOn d && rb d (ra pgFab 0x100) 30 then elect (elapse d m b (d.node.newAt + 4000000)) else d

/-- ELECTION (R465). -/
def execElection (s : State) : Host.Outcome State Fault Refusal := runDev s (fun d => election d s.mem s.boot)

/-- 100 ms after the leader's last ASSIGN (R465). -/
def assignRepeat (d : Dev) (m : Mem) (b : Boot) : Dev :=
  if d.node.leader then repeatAssign (elapse d m b (d.node.assignAt + 40000000)) else d

/-- ASSIGN_REPEAT (R465). -/
def execAssignRepeat (s : State) : Host.Outcome State Fault Refusal := runDev s (fun d => assignRepeat d s.mem s.boot)

/-- TOPO_CHANGE: Benath computes the tables unless the host writes them (R470, R471). -/
def execTopoChange (s : State) : Host.Outcome State Fault Refusal :=
  runDev s (fun d => if rb d (ra pgFab 0x100) 28 then d else computeTables d)

/-- 2 ms after the link of port `p` went down its held frames are dropped (R470). -/
def heldFrameDrop (d : Dev) (m : Mem) (b : Boot) (p : Nat) : Dev :=
  if fabUp d p || (fbp d p).held.isEmpty then d else dropHeld (elapse d m b ((fbp d p).heldAt + 800000)) p

/-- HELD_FRAME_DROP (R470). -/
def execHeldFrameDrop (p : Fin 5) (s : State) : Host.Outcome State Fault Refusal :=
  runDev s (fun d => heldFrameDrop d s.mem s.boot p)

/-- 100 µs without a reference trigger (R472). -/
def refIdleTimer (d : Dev) (m : Mem) (b : Boot) : Dev :=
  if isMaster d && !remoteRef d then refIdle (elapse d m b (d.node.refSent + 40000)) else d

/-- REF_IDLE (R472). -/
def execRefIdle (s : State) : Host.Outcome State Fault Refusal := runDev s (fun d => refIdleTimer d s.mem s.boot)

/-- REF_LINE_ARRIVAL (R473). -/
def execRefLineArrival (src : BitVec 6) (words : List Dword) (s : State) : Host.Outcome State Fault Refusal :=
  runDev s (fun d => refArrive d s.mem s.boot src.toNat words)

/-- REF_LINE_EFFECT: the wait that ends first ends (R473 to R476, R481, R487). -/
def execRefLineEffect (s : State) : Host.Outcome State Fault Refusal := runDev s (fun d => refWaitEnds d s.mem s.boot)

/-- REF_LOST (R475). -/
def execRefLost (s : State) : Host.Outcome State Fault Refusal :=
  runDev s (fun d => if remoteRef d then refSilent (elapse d s.mem s.boot (d.node.refHeard + refLoss d)) else d)

/-- RELAY_PUBLISH of relay `r` at the end of its period (R477). -/
def execRelayPublish (r : Fin 2) (s : State) : Host.Outcome State Fault Refusal :=
  runDev s (fun d =>
    if relayOut d r then relayPublish (elapse d s.mem s.boot (tat d.node.relays r).nextPub) r else d)

/-- RELAY_SAMPLE_ARRIVAL (R478). -/
def execRelaySampleArrival (r : Fin 2) (src : BitVec 6) (words : List Dword) (s : State) :
    Host.Outcome State Fault Refusal :=
  runDev s (fun d => relayArrive d s.mem s.boot r src.toNat words)

/-- RELAY_SAMPLE_EFFECT (R478). -/
def execRelaySampleEffect (r : Fin 2) (s : State) : Host.Outcome State Fault Refusal :=
  runDev s (fun d => relayWaitEnds d s.mem s.boot r)

/-- RELAY_REF_LOSS: no sample of relay `r` for REF_LOSS µs (R478). -/
def execRelayRefLoss (r : Fin 2) (s : State) : Host.Outcome State Fault Refusal :=
  runDev s (fun d =>
    if relayIn d r then
      setStale (elapse d s.mem s.boot ((tat d.node.relays r).lastAt + refLoss d)) (6 + r)
    else d)

/-- SYNC_SEND (R479). -/
def execSyncSend (s : State) : Host.Outcome State Fault Refusal := runDev s syncSend

/-- PDELAY_REQ on port `p` (R479). -/
def execPdelayReq (p : Fin 5) (s : State) : Host.Outcome State Fault Refusal := runDev s (fun d => pdelayAsk d p)

/-- PREPARE (R485). -/
def execPrepare (src : BitVec 6) (words : List Dword) (s : State) : Host.Outcome State Fault Refusal :=
  runDev s (fun d => prepareArrive d s.mem src.toNat words)

/-- VOTE (R485, R486). -/
def execVote (src : BitVec 6) (words : List Dword) (s : State) : Host.Outcome State Fault Refusal :=
  runDev s (fun d => voteArrive d src.toNat words)

/-- RECORD (R461). -/
def execRecord (src : BitVec 6) (words : List Dword) (s : State) : Host.Outcome State Fault Refusal :=
  runDev s (fun d => recordArrive d src.toNat words)

/-- RECORD_ACK (R461). -/
def execRecordAck (src : BitVec 6) (words : List Dword) (s : State) : Host.Outcome State Fault Refusal :=
  runDev s (fun d => if src.toNat = rf d (destA 3 0) 5 0 then recordAckArrive d words else d)

/-- A RECORD_ACK falls due (R461). -/
def recordAckSend (d : Dev) (m : Mem) (b : Boot) (k : Nat) : Dev :=
  match ackDue (coll d k) with
  | none => d
  | some t => ackRecords (elapse d m b t) k

/-- RECORD_ACK_SEND to node `node` (R461). -/
def execRecordAckSend (node : BitVec 6) (s : State) : Host.Outcome State Fault Refusal :=
  runDev s (fun d => recordAckSend d s.mem s.boot node.toNat)

/-- DEST03_RESEND: after 100 µs without a RECORD_ACK, or at once after a route change (R461). -/
def execDest03Resend (s : State) : Host.Outcome State Fault Refusal := runDev s dest3Resend

end Sys2Proof.Machine
end

