-- ==== Sys2Proof/Machine/PairFrames.lean ====
section
/-!
DEFINITION. Frames of the Pairing link beyond those of the agreement checks: mirrored writes, forwarded fabric frames, the
steps of a join, and update messages (R520 to R522, R538 to R541).
-/

namespace Sys2Proof.Machine

/-! ### Mirrored writes (R520, R521) -/

/-- The lines below this one have been committed by every tracked station; with none tracked, those up to the system line
number have. -/
def linesDone (d : Dev) : Nat :=
  let ends := (List.range 8).filterMap (fun ss =>
    if tracked d.force ss then some (((trkStn d ss).last.map (· + 1)).getD 0) else none)
  match ends with
  | [] => d.pos.sysLine + 1
  | e :: es => es.foldl Nat.min e

/-- A mirrored arming in line mode that comes after its line: the group is refused on both parts (R520). -/
def lateArming (d : Dev) (a : Nat) : Dev :=
  let pg := a / 4096
  let g := armOf d pg
  if a % 4096 = 0x028 ∧ g.armed ∧ g.mode = 1 ∧ g.pos ≤ d.pos.sysLine ∧ pairState d ≠ 2 then refuseGroup d [pg] [] (fun _ => true)
  else d

/-- One word of a mirrored BAR0 write, as it is made. An arming whose line has gone by commits nothing. -/
def mirrorWord (b : Boot) (a : Nat) (r : Dev × Mem) (v : Word) : Dev × Mem :=
  if a % 4096 = 0x028 ∧ bitOf v 30 ∧ !bitOf v 29 ∧ !(armOf r.1 (a / 4096)).armed ∧ isShadowPage (a / 4096) then
    let d := storeReg r.1 (ra (a / 4096) 0x028) v
    (lateArming { d with arming := tset d.arming (a / 4096) (armingOf d (a / 4096)) } a, r.2)
  else writeWord r.1 r.2 b a v

/-- A mirrored write is made on this part. -/
def applyMirror (d : Dev) (m : Mem) (b : Boot) (w : MirWrite) : Dev × Mem :=
  if w.bar2 then barWrite d m w.off (w.vals.flatMap wordBytes)
  else w.vals.zipIdx.foldl (fun r x => mirrorWord b (w.off + 4 * x.2) r x.1) (d, m)

/-- The standby acknowledges what it has applied (R520, R541). -/
def sendMirrorAck (d : Dev) (seq : Nat) : Dev :=
  let q := Nat.max seq d.pair.mirAck
  sendPair (setPair d { d.pair with mirAck := q }) [dpack [(60, 4, 4), (0, 32, q)]]

/-- The write of a MIRROR frame (R541). -/
def mirrorOf (ws : List Dword) : MirWrite :=
  let at' := (dwAt ws 0).getLsbD 52
  let bar2 := (dwAt ws 1).getLsbD 63
  { seq := dfld (dwAt ws 0) 31 0, bar2 := bar2, off := if bar2 then dfld (dwAt ws 1) 29 0 else dfld (dwAt ws 1) 25 0,
    vals := ((ws.drop (if at' then 3 else 2)).take (dfld (dwAt ws 0) 51 48)).map (fun x => x.setWidth 32),
    line := if at' then some (dwAt ws 2).toNat else none }

/-- A MIRROR frame arrives: the write is made now, or held for its line; where that line is committed already the part
falls out of step (R520, R521). -/
def takeMirror (d : Dev) (m : Mem) (b : Boot) (ws : List Dword) : Dev × Mem :=
  if !standby d then (d, m)
  else
    let w := mirrorOf ws
    let d := setPair (pairHeard d) { (pairHeard d).pair with mirRx := w.seq }
    let now := fun (d : Dev) =>
      let r := applyMirror d m b w
      (sendMirrorAck r.1 w.seq, r.2)
    match w.line with
    | none => now d
    | some n =>
      if n < linesDone d then now (unsync d) else (setPair d { d.pair with held := d.pair.held ++ [w] }, m)

/-- A held write whose line is committed. -/
def mirrorReady (d : Dev) (w : MirWrite) : Bool := decide (w.line.getD 0 < linesDone d)

/-- The line of held writes is committed, and they take effect on either part (R521). -/
def mirrorNow (d : Dev) (m : Mem) (b : Boot) : Dev × Mem :=
  if !pairEn d then (d, m)
  else
    let due := d.pair.held.filter (mirrorReady d)
    let d := setPair d { d.pair with held := d.pair.held.filter (fun w => !mirrorReady d w) }
    due.foldl (fun r w =>
      let q := applyMirror r.1 r.2 b w
      if standby q.1 then (sendMirrorAck q.1 w.seq, q.2) else q) (d, m)

/-- The standby has applied what it acknowledges: armings it knows of may take effect (R520). -/
def takeMirrorAck (d : Dev) (ws : List Dword) : Dev :=
  if !pairActive d then d
  else
    let q := dfld (dwAt ws 0) 31 0
    let p := (pairHeard d).pair
    let known := fun (x : Nat × Nat) => decide (x.1 ≤ q)
    setPair d { p with mirAck := q, armSent := p.armSent.filter (fun x => !known x),
                       armAcked := (p.armSent.filter known).map (fun x => x.2) ++ p.armAcked }

/-! ### Frames for this node -/

/-- A frame of class 0x1 to 0x4 that is delivered here, by class and KIND (R311 to R320, R472 to R488). Time frames stand
with their ports. -/
def deliverFrame (d : Dev) (m : Mem) (b : Boot) (f : Frame) : Dev :=
  let src := f.src.toNat
  let ws := f.payload
  match f.cls.toNat, kindOf ws with
  | 1, 0 => fragArrive m d src ws
  | 1, 1 => joinArrive d src ws
  | 1, 2 => sumArrive m d src ws false
  | 1, 3 => sumArrive m d src ws true
  | 1, 4 => seamFlushArrive m d src ws
  | 2, 0 => refArrive d m b src ws
  | 2, 1 => refArrive d m b src ws
  | 2, 2 => prepareArrive d m src ws
  | 2, 3 => voteArrive d src ws
  | 3, 0 => relayArrive d m b ((dwAt ws 0).getLsbD 59).toNat src ws
  | _, _ => d

/-- The header of a frame as a word, and back (R451). -/
def headerWord (f : Frame) : Dword :=
  dpack [(52, 4, f.cls.toNat), (46, 6, f.dst.toNat), (40, 6, f.src.toNat), (35, 5, f.len.toNat), (34, 1, f.bcast.toNat),
    (20, 12, f.lseq.toNat), (14, 6, f.hops.toNat)]
def headedFrame (w : Dword) (payload : List Dword) : Frame :=
  let g := fun hi lo => dfld w hi lo
  { cls := BitVec.ofNat 4 (g 55 52), dst := BitVec.ofNat 6 (g 51 46), src := BitVec.ofNat 6 (g 45 40),
    len := BitVec.ofNat 5 (g 39 35), bcast := w.getLsbD 34, rsv := 0, lseq := BitVec.ofNat 12 (g 31 20),
    hops := BitVec.ofNat 6 (g 19 14), payload := payload.take (g 39 35), ack := 0, ackValid := false, crPool := 0, crCount := 0 }

/-- The active part forwards a fabric frame of class 0x1 to 0x4 that it has accepted (R522, R541). -/
def forwardToTwin (d : Dev) (f : Frame) : Dev :=
  if mirrorOn d && decide (1 ≤ f.cls.toNat ∧ f.cls.toNat ≤ 4) then
    sendPair d (dpack [(60, 4, 5)] :: recW6 (timeStamp d) :: headerWord f :: f.payload)
  else d

/-- A forwarded frame is processed at its arrival time plus FWD_DELAY, as if it had come on a port of this part (R522).
Frames for other nodes have no effect, and time frames none beside the time of the twin (R519, R525). -/
def takeForward (d : Dev) (m : Mem) (b : Boot) (ws : List Dword) : Dev :=
  if !standby d then d
  else
    let d := pairHeard d
    let due := sampleTime d (dwAt ws 1) + 6553600 * rf d (pairA 0x114) 7 0
    let d := match waitCycles d due with
      | none => d
      | some n => elapse d m b (d.cycle + n)
    let f := headedFrame (dwAt ws 2) (ws.drop 3)
    if f.bcast || decide (f.dst.toNat = myId d) || !idValid d then deliverFrame d m b f else d

/-! ### Joining (R538, R539) -/

/-- The registers of the mirrored pages that hold what is written, shadow images and settings alike, with their words. -/
def settingWords (d : Dev) : List (Nat × Word) :=
  ((List.range 0x267).filter (fun pg => mirrorPage pg || isShadowPage pg)).flatMap (fun pg =>
    (List.range 1024).filterMap (fun i =>
      let a := ra pg (4 * i)
      let keep := shadowMask a ||| (if mirrorPage pg ∧ !timeAlone a then heldBits pg (4 * i) else 0)
      if keep = 0 ∨ 4 * i = 0x028 then none else some (a, reg d a &&& keep)))

/-- The arming of a page as a MIRROR frame, for the standby to acknowledge (R520). -/
def sendArming (d : Dev) (pg : Nat) : Dev :=
  let d := sendMirror d false (ra pg 0x028) [reg d (ra pg 0x028) ||| 0x40000000] none
  setPair d { d.pair with armSent := (d.pair.mirTx, pg) :: d.pair.armSent.filter (fun x => decide (x.2 ≠ pg)),
                          armAcked := d.pair.armAcked.filter (fun g => decide (g ≠ pg)) }

/-- The active part's settings and tables leave as MIRROR frames, its recipe and position state as items (R539 step 2). -/
def sendState (d : Dev) (m : Mem) : Dev :=
  let d := (settingWords d).foldl (fun d q => sendMirror d false q.1 [q.2] none) d
  let d := (tablesUsed d).foldl (fun d t =>
    let os := wordsOf t.1 t.2
    mirrorTable os.length os m d) d
  let d := (armedPages d).foldl sendArming d
  let d := (committedRegs d).foldl (fun d q => sendPair d (joinItem 3 6 q.1 [q.2.toNat])) d
  (positionItems d).foldl sendPair d

/-- The active part answers a JOIN_REQ (R538, R539 steps 1 and 2). -/
def joinAsked (d : Dev) (m : Mem) (ws : List Dword) : Dev :=
  if !pairActive d then d
  else if pairCompatible d (dfld (dwAt ws 1) 15 8) (dfld (dwAt ws 1) 7 0) then
    let bc := joinBlock d
    let d := pairTo (setPair d { d.pair with protect := false, joinFrom := some bc }) 5
    sendState (sendPair d [dpack [(60, 4, 7), (56, 4, 1)], BitVec.ofNat 64 bc]) m
  else sendPair d [dpack [(60, 4, 7), (56, 4, 2), (51, 5, 1)]]

/-- A join refused for its versions: it does not start again by itself (R538, R540). -/
def joinRefused (d : Dev) : Dev :=
  if pairEn d && decide (pairState d = 2) then evt (count (poke d (pairA 0x12C) 28 24 1) (pairA 0x154)) pgPair 9 else d

/-- A POSITION item waits for the reference trigger; a count takes this part's own count at its arrival with it (R539
step 2). -/
def keepPosition (d : Dev) (ws : List Dword) : Dev :=
  let own := if dfld (dwAt ws 1) 63 56 = 1 then
      ((ws ++ List.replicate 6 0).take 6) ++ [BitVec.ofNat 64 (sf 64 (ench d (dfld (dwAt ws 1) 55 0)).count)]
    else ws
  poke (setPair d { d.pair with posn := d.pair.posn ++ [own] }) (pairA 0x12C) 31 29 1

/-- The recipe among the items comes into force: every shadow register takes the active part's value in force, while the
shadow images stay as they are mirrored (R539 step 2). -/
def joinRecipe (d : Dev) (m : Mem) (b : Boot) : Dev :=
  let items := d.pair.posn.filter (fun ws => decide (dfld (dwAt ws 1) 63 56 = 6))
  if items.isEmpty then d
  else
    let images := items.map (fun ws => (dfld (dwAt ws 1) 25 0, reg d (dfld (dwAt ws 1) 25 0)))
    let arms := d.arming
    let x := items.foldl (fun d ws => setReg d (dfld (dwAt ws 1) 25 0) (BitVec.ofNat 32 (itemAt ws 0))) d
    let x := settle m b (applyGroup x m shadowPages (d.pos.epoch % 256))
    images.foldl (fun d q => setReg d q.1 ((q.2 &&& shadowMask q.1) ||| (reg d q.1 &&& ~~~ shadowMask q.1))) { x with arming := arms }

/-- The copied state takes effect at a reference trigger (R539 step 2). -/
def joinEffect (d : Dev) (m : Mem) (b : Boot) : Dev := positionEffect (joinRecipe d m b)

/-- A JOIN frame advances a join (R539, R541). -/
def takeJoin (d : Dev) (m : Mem) (ws : List Dword) : Dev :=
  if !pairEn d then d
  else
    let d := pairHeard d
    let step := dfld (dwAt ws 0) 59 56
    if step = 0 then joinAsked d m ws
    else if pairState d ≠ 2 then d
    else match step with
    | 1 => setPair d { d.pair with joinFrom := some (dwAt ws 1).toNat }
    | 2 => joinRefused d
    | 3 => keepPosition d ws
    | 4 => poke (takeSnapshot d ws) (pairA 0x12C) 31 29 3
    | 5 => joinDone d
    | _ => d

/-! ### Update messages (R541, R644) -/

/-- An update message as a standby part has it in whole (R637). -/
def updateMessage (d : Dev) (m : Mem) (b : Boot) (bs : List Byte) : Dev × Mem × Boot :=
  let w := fun i => ofLeBytes ((bs.drop (4 * i)).take 4)
  let n := natField (w 1) 31 16
  let r : UpdRequest := { source := 4, token := BitVec.ofNat 16 (w 1), offset := w 2, crc := BitVec.ofNat 32 (w 3),
                          payload := (bs.drop 16).take n }
  let op := natField (w 0) 23 16
  if w 0 % 65536 ≠ 0x7E21 ∨ bs.length < 16 ∨ !served d 4 then (d, m, b)
  else if n > 1024 ∨ n % 16 ≠ 0 then (answer d r op r.token.toNat .badArg, m, b)
  else match op with
  | 1 => openSess d m b r
  | 2 => ((writeSess d m b r).1, (writeSess d m b r).2, b)
  | 3 => closeSess d m b r
  | 4 => (abortSess d r, m, b)
  | 5 => activateImage d m b r false
  | 6 => (statusSess d r, m, b)
  | _ => (answer d r op r.token.toNat .badArg, m, b)

/-- A fragment of an update message: a message is acted on when all its bytes have come in order; a fragment out of order
discards it (R541). Only a standby part is staged into over the link (R644). -/
def takeFragment (d : Dev) (m : Mem) (b : Boot) (ws : List Dword) : Dev × Mem × Boot :=
  if !standby d then (d, m, b)
  else
    let d := pairHeard d
    let num := dfld (dwAt ws 0) 47 32
    let off := dfld (dwAt ws 0) 31 16
    let len := dfld (dwAt ws 0) 15 0
    let old := if off = 0 then [] else d.pair.msg
    let gone := setPair d { d.pair with msg := [], msgLen := 0 }
    if len > 1040 ∨ off ≠ old.length ∨ (off ≠ 0 ∧ (num ≠ d.pair.msgNo ∨ len ≠ d.pair.msgLen)) then (gone, m, b)
    else
      let all := old ++ ((ws.drop 1).flatMap (fun w => leBytes 8 w.toNat)).take (Nat.min 120 (len - off))
      if all.length < len then (setPair d { d.pair with msgNo := num, msgLen := len, msg := all }, m, b)
      else updateMessage gone m b all

/-! ### Any frame of the Pairing link -/

/-- A frame of class 0x7, by KIND (R541). -/
def takePairFrame (d : Dev) (m : Mem) (b : Boot) (ws : List Dword) (ingress : WireTime) : Dev × Mem × Boot :=
  let only := fun (x : Dev) => (x, m, b)
  match kindOf ws with
  | 0 => only (takeHeartbeat d ws)
  | 1 => only (takeReport d ws)
  | 2 => only (takeDigest d ws)
  | 3 => ((takeMirror d m b ws).1, (takeMirror d m b ws).2, b)
  | 4 => only (takeMirrorAck d ws)
  | 5 => only (takeForward d m b ws)
  | 6 => only (takePairTime d ws ingress)
  | 7 => only (takeJoin d m ws)
  | 8 => only (takeSwap d ws)
  | 9 => takeFragment d m b ws
  | _ => only d

end Sys2Proof.Machine
end

