-- ==== Sys2Proof/Machine/CmdFrames.lean ====
section
/-!
DEFINITION. The meanings of the commands that are a frame on a port or on the Pairing link (R451 to R481, R507, R520 to R522,
R539 to R541).
-/

namespace Sys2Proof.Machine

/-- An accepted frame that goes no further gives its buffer back (R454). -/
def frameEnds (d : Dev) (p : Nat) (f : Frame) : Dev :=
  let uid := d.node.uid + 1
  returnCredit { d with node := { d.node with uid := uid } } { f := f, arr := some p, uid := uid }

/-- A link-control frame by KIND (R455). -/
def linkControl (d : Dev) (p : Nat) (f : Frame) : Dev :=
  match kindOf f.payload with
  | 1 => nakArrive d p f.payload
  | 2 => creditArrive d p f.payload
  | 3 => helloArrive d p f
  | 4 => assignArrive d p f
  | _ => d

/-- A frame of a class that is routed, as it is delivered here (R461, R479). -/
def localFrame (d : Dev) (m : Mem) (b : Boot) (p : Nat) (f : Frame) (ingress : WireTime) : Dev :=
  match f.cls.toNat, kindOf f.payload with
  | 4, 0 => syncTake d p f.payload ingress
  | 5, 0 => recordArrive d f.src.toNat f.payload
  | 5, 1 => if f.src.toNat = rf d (destA 3 0) 5 0 then recordAckArrive d f.payload else d
  | _, _ => deliverFrame d m b f

/-- An accepted frame is handled: link control on its port, delay measurements there too, frames of the Pairing link by the
twin, and others by the routing tables (R455, R469, R479, R541). -/
def handleFrame (d : Dev) (m : Mem) (b : Boot) (p : Nat) (f : Frame) (ingress : WireTime) : Dev × Mem × Boot :=
  if f.cls = 0 then (linkControl d p f, m, b)
  else if f.cls = 7 then takePairFrame (frameEnds d p f) m b f.payload ingress
  else if f.cls = 4 ∧ kindOf f.payload = 1 then (pdelayAnswer (frameEnds d p f) p f.payload ingress, m, b)
  else if f.cls = 4 ∧ kindOf f.payload = 2 then (pdelayTake (frameEnds d p f) p f.payload ingress, m, b)
  else
    let d := forwardToTwin d f
    let here := (routeOf d p f).2
    let d := forwardFrame d (some p) f
    (if here then localFrame d m b p f ingress else d, m, b)

/-- A frame arrives on port `p` (R452, R456, R457). -/
def frameArrive (d : Dev) (m : Mem) (b : Boot) (p : Nat) (f : Frame) (w : Wire) (ingress : WireTime) : Dev × Mem × Boot :=
  if !fabUp d p then (d, m, b)
  else
    let r := linkAccept d p f w
    if r.2 then handleFrame r.1 m b p f ingress else (r.1, m, b)

/-- A frame that came whole, of the class and kind that its row names; another has no effect (DESIGN CHOICE, log 36). -/
def namedFrame (s : State) (p : Nat) (f : Frame) (cls kind : Nat) (ingress : WireTime) : Host.Outcome State Fault Refusal :=
  anyState s (fun d m b =>
    if d.life = .up ∧ f.cls.toNat = cls ∧ kindOf f.payload = kind then
      frameArrive d m b p f { crcOk := true, blockError := false } ingress
    else (d, m, b))

/-- FRAME_RECEIVE (R452 to R457, R469). -/
def execFrameReceive (p : Fin 5) (f : Frame) (w : Wire) (s : State) : Host.Outcome State Fault Refusal :=
  anyState s (fun d m b => if d.life = .up then frameArrive d m b p f w (wireNow d) else (d, m, b))

/-- NAK (R457, R458). -/
def execNak (p : Fin 5) (f : Frame) (s : State) : Host.Outcome State Fault Refusal := namedFrame s p f 0 1 (wireNow s.dev)

/-- CREDIT (R454, R455). -/
def execCredit (p : Fin 5) (f : Frame) (s : State) : Host.Outcome State Fault Refusal := namedFrame s p f 0 2 (wireNow s.dev)

/-- HELLO (R463, R464). -/
def execHello (p : Fin 5) (f : Frame) (s : State) : Host.Outcome State Fault Refusal := namedFrame s p f 0 3 (wireNow s.dev)

/-- ASSIGN (R465). -/
def execAssign (p : Fin 5) (f : Frame) (s : State) : Host.Outcome State Fault Refusal := namedFrame s p f 0 4 (wireNow s.dev)

/-- SYNC (R479, R507). -/
def execSync (p : Fin 5) (f : Frame) (ingress : WireTime) (s : State) : Host.Outcome State Fault Refusal :=
  namedFrame s p f 4 0 ingress

/-- PDELAY_RESP (R479, R507). -/
def execPdelayResp (p : Fin 5) (f : Frame) (ingress : WireTime) (s : State) : Host.Outcome State Fault Refusal :=
  namedFrame s p f 4 2 ingress

/-- MIRROR (R520, R521). -/
def execMirror (words : List Dword) (s : State) : Host.Outcome State Fault Refusal :=
  runMem s (fun d m => takeMirror d m s.boot words)

/-- MIRROR_APPLY (R521). -/
def execMirrorApply (s : State) : Host.Outcome State Fault Refusal := runMem s (fun d m => mirrorNow d m s.boot)

/-- MIRROR_ACK (R520). -/
def execMirrorAck (words : List Dword) (s : State) : Host.Outcome State Fault Refusal := runDev s (fun d => takeMirrorAck d words)

/-- FORWARD (R522). -/
def execForward (words : List Dword) (s : State) : Host.Outcome State Fault Refusal :=
  runDev s (fun d => takeForward d s.mem s.boot words)

/-- JOIN (R538, R539). -/
def execJoin (words : List Dword) (s : State) : Host.Outcome State Fault Refusal := runDev s (fun d => takeJoin d s.mem words)

/-- UPDATE_FRAGMENT (R541, R644). -/
def execUpdateFragment (words : List Dword) (s : State) : Host.Outcome State Fault Refusal :=
  anyState s (fun d m b => if d.life = .up then takeFragment d m b words else (d, m, b))

end Sys2Proof.Machine
end

