-- ==== Sys2Proof/Machine/CmdHealth.lean ====
section
/-!
DEFINITION. The meanings of the commands of power, thermal behaviour and health, and of fault containment (R65, R72 to
R76, R582 to R623). What follows a reset stands with the boot commands.
-/

namespace Sys2Proof.Machine

/-! ### Fault containment -/

/-- The page of a rand, which raises its errors (DEDUCED, log 37). -/
def randPage (wale rand : Nat) : Nat := if rand = 0 then pgFront wale else if rand = 1 then pgGeom wale else pgSeg wale

/-- Where the replaced line is marked: 0 with a camera line, 1 to 3 with a system line of the geometry, segmentation or
run rand (R72). -/
def parityStage (rand : Nat) (colour : Bool) : Nat := if rand = 1 && colour then 0 else rand

/-- A weaver parity error: the next line that the rand takes in the context is replaced, since none lies within a rand
between two commands (R72, DEDUCED, log 38). -/
def weaverParity (d : Dev) (x w rand weaver : Nat) (colour : Bool) : Dev :=
  let loc := 4096 * x + 256 * w + 16 * rand + weaver
  let s := wst d w x
  let d := setWst d w x { s with faults := s.faults ++ [parityStage rand colour] }
  faultEvent (raise d (randPage w rand) 0x11 2 3 loc) 2 loc (faultLevel 2 true)

/-- WEAVER_PARITY (R72). -/
def execWeaverParity (ctx : Bool) (wale : Fin 16) (rand : Fin 4) (weaver : Fin 6) (colour : Bool) (s : State) :
    Host.Outcome State Fault Refusal :=
  runDev s (fun d => weaverParity d ctx.toNat wale rand weaver colour)

/-- A fault contained at Stake die `k` isolates it: its wales stop and its rod is closed (R75). -/
def isolateDie (d : Dev) (k detail : Nat) : Dev :=
  if d.iso.contains k then d
  else raise { d with iso := d.iso ++ [k], rods := d.rods.filter (fun r => decide (r.wale / 4 ≠ k)) } pgFlt 0x10 2 4 detail

/-- STAKE_ISOLATED (R75). -/
def execStakeIsolated (die : Fin 4) (detail : Word) (s : State) : Host.Outcome State Fault Refusal :=
  runDev s (fun d => isolateDie d die detail.toNat)

/-- SLATH_FAULT (R76). -/
def execSlathFault (detail : Word) (s : State) : Host.Outcome State Fault Refusal :=
  runDev s (fun d => stopPart (raise d pgFlt 0x02 3 4 detail.toNat) s.mem)

/-- The root PLL loses lock: the part stops, and holds in reset (R65, R66). -/
def rootLockLost (d : Dev) (m : Mem) (b : Boot) : Dev :=
  let d := pokeBit (pokeBit d (ra pgClk 0x100) 31 false) (ra pgClk 0x100) 30 true
  { takeErrors (stopPart (raiseOpen d pgClk 0x01 3 5) m) b with life := .held 1 }

/-- ROOT_LOCK_LOST (R65). -/
def execRootLockLost (s : State) : Host.Outcome State Fault Refusal := runDev s (fun d => rootLockLost d s.mem s.boot)

/-! ### Temperature and power -/

/-- One round of sensing, and what it brings about (R582 to R587, R591, R594, R537). -/
def senseRound (d : Dev) (m : Mem) (readings : List (BitVec 16)) (powers : List Nat) : Dev :=
  let e := sensorRound d readings powers
  riskSwap d (if hottest e ≥ 920 then shutdown e m 0x03 else e)

/-- While the part waits for the release of its trip only the Slath-zone sensors are read (R596). -/
def slathReadings (d : Dev) (readings : List (BitVec 16)) : Dev :=
  (List.range 24).foldl (fun d k => poke d (sensorA (384 + k)) 15 0 (readings.getD (384 + k) 0).toNat) d

/-- SENSOR_READ (R582). -/
def execSensorRead (readings : List (BitVec 16)) (powers : List Nat) (s : State) : Host.Outcome State Fault Refusal :=
  anyDev s (fun d =>
    match d.life with
    | .up => senseRound d s.mem readings powers
    | .held 2 => slathReadings d readings
    | _ => d)

/-- An evaluation of the throttle step (R588 to R591, R537). -/
def throttle (d : Dev) (m : Mem) (b : Boot) : Dev :=
  match throttleAt d with
  | none => d
  | some t => riskSwap d (throttleEval (elapse d m b t))

/-- THROTTLE (R588). -/
def execThrottle (s : State) : Host.Outcome State Fault Refusal := runDev s (fun d => throttle d s.mem s.boot)

/-- POWER_LIMIT: a 10 ms average of unit 0 to 3 (Stake), 4 (Slath) or 5 (package) (R592). -/
def execPowerLimit (unit : Fin 6) (average : Nat) (s : State) : Host.Outcome State Fault Refusal :=
  runDev s (fun d => powerAverage d unit average)

/-- SHUTDOWN_REQ (R594). -/
def execShutdownReq (s : State) : Host.Outcome State Fault Refusal := runDev s (fun d => shutdown d s.mem 0x04)

/-- THERM_TRIP_N is asserted, and the part is held in reset, of which BOOT_CAUSE tells (R595, R596, R655). -/
def trip (d : Dev) : Dev := { poke (pokeBit d thermStatA 26 true) (ra pgBoot 0x104) 2 0 4 with life := .held 2 }

/-- THERM_TRIP: an orderly shutdown ends (R595). -/
def execThermTrip (s : State) : Host.Outcome State Fault Refusal :=
  runDev s (fun d => if shuttingDown d then trip (takeErrors d s.boot) else d)

/-- The always-on comparator watches in deep sleep and during Upsett (R596). -/
def comparatorOn (d : Dev) : Bool :=
  match d.life with
  | .up => false
  | .held k => decide (k = 2) || decide (k = 4)
  | .asleep => true
  | .recovery => true

/-- TRIP_COMPARATOR (R596). -/
def execTripComparator (s : State) : Host.Outcome State Fault Refusal :=
  anyDev s (fun d => if comparatorOn d then trip d else d)

/-- AVS_UPDATE (R598 to R600). -/
def execAvsUpdate (d : Fin 5) (slack : BitVec 8) (mv : BitVec 16) (s : State) : Host.Outcome State Fault Refusal :=
  runDev s (fun z => avsUpdate z d slack.toNat mv.toNat)

/-- AGEING_MEASURE (R6, R601). -/
def execAgeingMeasure (d : Fin 5) (count : BitVec 16) (s : State) : Host.Outcome State Fault Refusal :=
  runMem s (fun z m => ageBaseline z m s.boot d count.toNat)

/-! ### Calibration, monitors, faults -/

/-- CAL_CHECK (R602). -/
def execCalCheck (s : State) : Host.Outcome State Fault Refusal := runDev s calCheck

/-- CAL_GO (R602). -/
def execCalGo (classes : BitVec 5) (s : State) : Host.Outcome State Fault Refusal :=
  runDev s (fun d => calGo d classes.toNat)

/-- CAL_DONE (R603 to R605). -/
def execCalDone (t : CalTarget) (r : EyeResult) (s : State) : Host.Outcome State Fault Refusal :=
  runDev s (fun d => calDone d t r)

/-- MON_BIN_SEL (R620). -/
def execMonBinSel (mm : Fin 16) (s : State) : Host.Outcome State Fault Refusal := runDev s (fun d => monCopy d mm)

/-- A corrected event, in the counter of its channel and in the tracking table (R408, R434, R440, R441, R607). -/
def correctedFault (d : Dev) (cls loc : Nat) (inWale : Bool) : Dev :=
  let d := if cls = 1 then count d (ra (pgQdrCh (loc / 64 % 4)) 0x104)
    else if cls = 3 then countBy d (ra (pgLpxCh (lpxMap d loc).ch) 0x11C) 15 0 1
    else d
  faultEvent d cls loc (faultLevel cls inWale)

/-- CORRECTED_FAULT (R607). -/
def execCorrectedFault (cls : Fin 4) (location : Word) (inWale : Bool) (s : State) : Host.Outcome State Fault Refusal :=
  runDev s (fun d => correctedFault d cls location.toNat inWale)

/-- ROW_REMAP (R608). -/
def execRowRemap (die : Fin 5) (location : Word) (s : State) : Host.Outcome State Fault Refusal :=
  runDev s (fun d => rowRemap d die location.toNat)

/-! ### The error controller -/

/-- ERROR_ARRIVAL: every error raised and not yet handled reaches the controller, with one that no other command
raises (R609 to R615). -/
def execErrorArrival (e : Option OutsideError) (s : State) : Host.Outcome State Fault Refusal :=
  runDev s (fun d => takeErrors (match e with | none => d | some x => outsideErr d s.mem x) s.boot)

/-- ERRC_DONE (R611). -/
def execErrcDone (seq : BitVec 16) (s : State) : Host.Outcome State Fault Refusal :=
  runDev s (fun d => errcDone d seq.toNat)

end Sys2Proof.Machine
end

