-- ==== Sys2Proof/Machine/CmdHif.lean ====
section
/-!
DEFINITION. The meanings of the host's commands and of what ends them (R88 to R91, R354 to R361, R395, R404, R624).
-/

namespace Sys2Proof.Machine

/-! ### Register-bulk transfers (R358, R360) -/

/-- BAR0 offset and register count of a bulk transfer (R358). -/
def bulkOffset (c : HostCmd) : Nat := dfld (dwAt c.words 3) 25 0
def bulkCount (c : HostCmd) : Nat := dfld (dwAt c.words 3) 63 32

/-- Read `n` registers from offset `a` on, up to an unmapped page, whose access is recorded (R360, R667). -/
def bulkReads (b : Boot) : Nat → Nat → Dev → Dev × List Word × Bool
  | 0, _, d => (d, [], true)
  | n + 1, a, d =>
    if !mapped a then (badAccess d false false a, [], false)
    else
      let r := readWord d b a
      let q := bulkReads b n (a + 4) r.1
      (q.1, r.2 :: q.2.1, q.2.2)

/-- Write registers from offset `a` on, up to an unmapped page or a restart; the answer tells how many were written and
whether all were mapped (R91, R360, R667). -/
def bulkWrites : List Word → Nat → Dev × Mem × Boot → (Dev × Mem × Boot) × Nat × Bool
  | [], _, r => (r, 0, true)
  | v :: vs, a, r =>
    if r.1.restart || decide (r.1.life ≠ .up) then (r, 0, true)
    else if !mapped a then ((badAccess r.1 true false a, r.2), 0, false)
    else
      let q := bulkWrites vs (a + 4) (hostWord r.1 r.2.1 r.2.2 a v)
      (q.1, q.2.1 + 1, q.2.2)

/-- REG_BULK_READ. A management restart in progress ends it at once (R91). -/
def bulkRead (d : Dev) (m : Mem) (b : Boot) (tag : Nat) (dmaOk : Bool) : Dev × Mem :=
  match startable d tag 1 with
  | none => (d, m)
  | some c =>
    if d.restart then (finishCmd d tag { status := stRestarted }, m)
    else if bulkOffset c % 4 ≠ 0 then (finishCmd d tag { status := stBadArg }, m)
    else
      let q := bulkReads b (bulkCount c) (bulkOffset c) d
      let bs := q.2.1.flatMap wordBytes
      if !dmaOk then (finishCmd q.1 tag { status := stDmaFault }, m)
      else (finishCmd q.1 tag (resultEnd c bs.length (if q.2.2 then stOk else stBadArg) 0), putResult m c bs)

/-- REG_BULK_WRITE: the values come from the host's buffer, which must hold as many as are asked for. -/
def bulkWrite (d : Dev) (m : Mem) (b : Boot) (tag : Nat) (dmaOk : Bool) : Dev × Mem × Boot :=
  match startable d tag 2 with
  | none => (d, m, b)
  | some c =>
    let n := bulkCount c
    if d.restart then (finishCmd d tag { status := stRestarted }, m, b)
    else if bulkOffset c % 4 ≠ 0 ∨ c.room < 4 * n then (finishCmd d tag { status := stBadArg }, m, b)
    else if !dmaOk then (finishCmd d tag { status := stDmaFault }, m, b)
    else
      let vs := (List.range n).map (fun i => BitVec.ofNat 32 (ofLeBytes (mread zeroByte m.host (c.buf + 4 * i) 4)))
      let q := bulkWrites vs (bulkOffset c) (d, m, b)
      drainHeld (finishCmd q.1.1 tag { status := if q.2.2 then stOk else stBadArg, value := q.2.1 }, q.1.2)

/-! ### The rows -/

/-- HOST_INTERFACE_RESET (R361, R571, R624). -/
def execHostInterfaceReset (s : State) : Host.Outcome State Fault Refusal := runDev s hostReset

/-- COMMAND_FETCH (R361). -/
def execCommandFetch (s : State) : Host.Outcome State Fault Refusal := runDev s (fun d => fetchCmd d s.mem)

/-- FENCE (R90). -/
def execFence (tag : Fin 512) (s : State) : Host.Outcome State Fault Refusal := runDev s (fun d => fenceOpen d tag)

/-- NOP (R358). -/
def execNop (tag : Fin 512) (s : State) : Host.Outcome State Fault Refusal := runDev s (fun d => nopCmd d tag)

/-- REG_BULK_READ (R358). -/
def execRegBulkRead (tag : Fin 512) (dmaOk : Bool) (s : State) : Host.Outcome State Fault Refusal :=
  runMem s (fun d m => bulkRead d m s.boot tag dmaOk)

/-- REG_BULK_WRITE (R358). -/
def execRegBulkWrite (tag : Fin 512) (dmaOk : Bool) (s : State) : Host.Outcome State Fault Refusal :=
  anyState s (fun d m b => if d.life = .up then bulkWrite d m b tag dmaOk else (d, m, b))

/-- PATCH_FETCH (R358). -/
def execPatchFetch (tag : Fin 512) (dmaOk : Bool) (s : State) : Host.Outcome State Fault Refusal :=
  runMem s (fun d m => patchFetch d m tag dmaOk)

/-- RECORD_FETCH (R358). -/
def execRecordFetch (tag : Fin 512) (dmaOk : Bool) (s : State) : Host.Outcome State Fault Refusal :=
  runMem s (fun d m => recordFetch d m tag dmaOk)

/-- REPROCESS (R395, R396). -/
def execReprocess (tag : Fin 512) (s : State) : Host.Outcome State Fault Refusal := runDev s (fun d => reprocessCmd d tag)

/-- COMPLETION_WRITE (R359, R361). -/
def execCompletionWrite (s : State) : Host.Outcome State Fault Refusal := runMem s writeCompletion

/-- JOB_DONE of the job in a slot (R404). -/
def execJobDone (slot : Fin 4) (s : State) : Host.Outcome State Fault Refusal := runMem s (fun d m => jobDone d m slot)

end Sys2Proof.Machine
end

