-- ==== Sys2Proof/Machine/CmdHost.lean ====
section
/-!
DEFINITION. The meanings of the commands that are a host's access of BAR0 or BAR2: register writes, arming and committing,
and the writes that act (R354, R428, R520, R521, R572 to R577, R657 to R668).
-/

namespace Sys2Proof.Machine

/-- A host write of one register, wherever the part stands: it may wait, be mirrored, or be discarded. -/
def hostRow (s : State) (a : Nat) (v : Word) : Host.Outcome State Fault Refusal :=
  anyState s (fun d m b => hostWrite d m b a v)

/-- REGISTER_WRITE: any access of a register or window without a row of its own (R660, R666, R667). -/
def execRegisterWrite (a : HostAccess) (s : State) : Host.Outcome State Fault Refusal :=
  anyState s (fun d m b => hostAccess d m b a)

/-! ### Headers and commits -/

/-- RECIPE_COMMIT: the group armed with a page reaches its commit point, if its line has come (R68, R662, R697). -/
def execRecipeCommit (page : Nat) (s : State) : Host.Outcome State Fault Refusal :=
  runDev s (fun d => commitPage d s.mem s.boot page)

/-- COMMIT_NOW (R662). -/
def execCommitNow (s : State) : Host.Outcome State Fault Refusal := hostRow s (ra pgDev 0x104) 0x80000000

/-- ARM: `value` is the word written to COMMIT_MODE (R661 to R663, R697). -/
def execArm (page : Nat) (value : Word) (s : State) : Host.Outcome State Fault Refusal :=
  hostRow s (ra page 0x028) (value ||| 0x40000000)

/-- DISARM, with what COMMIT_MODE holds beside it (R661). -/
def execDisarm (page : Nat) (s : State) : Host.Outcome State Fault Refusal :=
  hostRow s (ra page 0x028) (reg s.dev (ra page 0x028) ||| 0x20000000)

/-- SRST, with what CTRL holds beside it (R659). -/
def execSrst (page : Nat) (s : State) : Host.Outcome State Fault Refusal :=
  hostRow s (ra page 0x008) ((reg s.dev (ra page 0x008) &&& 0x80000001) ||| 0x40000000)

/-- RAND_POWER_GATE, with the FREEZE bit as it stands (R658). -/
def execRandPowerGate (page : Nat) (en : Bool) (s : State) : Host.Outcome State Fault Refusal :=
  hostRow s (ra page 0x008) ((reg s.dev (ra page 0x008) &&& 0x80000000) ||| BitVec.ofNat 32 en.toNat)

/-! ### Rings -/

/-- DOORBELL (R354). -/
def execDoorbell (prod : Word) (s : State) : Host.Outcome State Fault Refusal := hostRow s (ringA 3 12) prod

/-- RING_CONS_WRITE of ring `rr` (R354). -/
def execRingConsWrite (rr : Fin 5) (cons : Word) (s : State) : Host.Outcome State Fault Refusal := hostRow s (ringA rr 16) cons

/-! ### Writes that act -/

/-- ALIGN_GO, with what ENC00_ALIGN holds beside it (R114). -/
def execAlignGo (s : State) : Host.Outcome State Fault Refusal :=
  hostRow s (ra (pgEnc 0) 0x180) (reg s.dev (ra (pgEnc 0) 0x180) ||| 0x80000000)

/-- TRK_FLUSH, with what TRK_CFG holds beside it (R293, R319). -/
def execTrkFlush (s : State) : Host.Outcome State Fault Refusal :=
  hostRow s (ra pgTrk 0x100) (reg s.dev (ra pgTrk 0x100) ||| 0x40000000)

/-- PEEK (R321). -/
def execPeek (handle : Nat) (s : State) : Host.Outcome State Fault Refusal :=
  hostRow s (ra pgTrk 0x180) (BitVec.ofNat 32 (handle % 2097152) ||| 0x80000000)

/-- BORDER_VERDICT (R346, R347). -/
def execBorderVerdict (hi : Word) (s : State) : Host.Outcome State Fault Refusal := hostRow s (ra pgBorder 0x118) hi

/-- SR_REQ, with what LPX_PASR holds beside it (R428). -/
def execSrReq (enter : Bool) (s : State) : Host.Outcome State Fault Refusal :=
  hostRow s (ra pgLpx 0x158) (putBit (reg s.dev (ra pgLpx 0x158)) 8 enter)

/-- FAB_ROUTE_COMMIT: host-written tables switch (R470). -/
def execFabRouteCommit (s : State) : Host.Outcome State Fault Refusal := hostRow s (ra pgFab 0x158) 0x80000000

/-- EPOCH_GO: a write of FAB_EPOCH_GO with GO (R484). -/
def execEpochGo (value : Word) (s : State) : Host.Outcome State Fault Refusal := hostRow s (ra pgFab 0x13C) (value ||| 0x80000000)

/-- REQ_RUN (R577). -/
def execReqRun (s : State) : Host.Outcome State Fault Refusal := hostRow s (ra pgPwr 0x100) 0

/-- REQ_IDLE (R572). -/
def execReqIdle (s : State) : Host.Outcome State Fault Refusal := hostRow s (ra pgPwr 0x100) 1

/-- REQ_DEEP_SLEEP (R572, R574). -/
def execReqDeepSleep (s : State) : Host.Outcome State Fault Refusal := hostRow s (ra pgPwr 0x100) 2

end Sys2Proof.Machine
end

