-- ==== Sys2Proof/Machine/CmdMemory.lean ====
section
/-!
DEFINITION. The meanings of the commands of history and of the memory controllers (R371 to R441). The completion of a
reprocess job stands with the host's commands.
-/

namespace Sys2Proof.Machine

/-- CHUNK_WRITE of history context `nn`; `room` tells that the write buffer can take it (R376 to R384). -/
def execChunkWrite (nn : Fin 32) (room : Bool) (s : State) : Host.Outcome State Fault Refusal :=
  runMem s (fun d m => chunkWrite d m nn room)

/-- REPROCESS_START (R396, R397, R399). -/
def execReprocessStart (s : State) : Host.Outcome State Fault Refusal := runDev s startJob

/-- JOB_LINE of the job in a slot (R398 to R400, R405). -/
def execJobLine (slot : Fin 4) (s : State) : Host.Outcome State Fault Refusal :=
  runMem s (fun d m => jobNext d m slot)

/-- LPX_POINT_CHANGE (R411, R412, R427). -/
def execLpxPointChange (point : BitVec 2) (s : State) : Host.Outcome State Fault Refusal :=
  runDev s (fun d => pointChange d point.toNat)

/-- REFRESH_DUE of a rank; `realTime` tells that real-time traffic waits on it (R424 to R426). -/
def execRefreshDue (cc : Fin 16) (rank realTime : Bool) (s : State) : Host.Outcome State Fault Refusal :=
  runDev s (fun d => refreshDue d cc rank.toNat realTime)

/-- REFRESH_RATE_POLL (R421 to R427). -/
def execRefreshRatePoll (cc : Fin 16) (r0 r1 : RateReadout) (s : State) : Host.Outcome State Fault Refusal :=
  runDev s (fun d => ratePoll d cc r0 r1)

/-- PAYBACK_WINDOW (R426). -/
def execPaybackWindow (cc : Fin 16) (rank : Bool) (s : State) : Host.Outcome State Fault Refusal :=
  runDev s (fun d => paybackWindow d cc rank.toNat)

/-- BANK_IDLE (R419). -/
def execBankIdle (cc : Fin 16) (rank : Bool) (bank : Fin 16) (s : State) : Host.Outcome State Fault Refusal :=
  runDev s (fun d => bankIdle d cc rank.toNat bank)

/-- LPX_TRAIN: the results of one channel's run (R431, R432). -/
def execLpxTrain (cc : Fin 16) (results : List TrainResult) (s : State) : Host.Outcome State Fault Refusal :=
  runDev s (fun d => lpxTrain d cc results)

/-- OSC_TRACK (R431). -/
def execOscTrack (cc : Fin 16) (lane : Bool) (taps : Int) (s : State) : Host.Outcome State Fault Refusal :=
  runDev s (fun d => oscTrack d cc lane.toNat taps)

/-- QDR_TRAIN: the results of one channel's run (R437). -/
def execQdrTrain (cc : Fin 4) (results : List TrainResult) (s : State) : Host.Outcome State Fault Refusal :=
  runDev s (fun d => qdrTrain d cc results)

end Sys2Proof.Machine
end

