-- ==== Sys2Proof/Machine/CmdPair.lean ====
section
/-!
DEFINITION. The meanings of the Pairing commands that are no mirrored write or forwarded frame (R517 to R540).
-/

namespace Sys2Proof.Machine

/-- CLAIM_DELAY (R518). -/
def execClaimDelay (act : Bool) (s : State) : Host.Outcome State Fault Refusal :=
  runDev s (fun d => claimEnds d s.mem s.boot act)

/-- CLAIM_CONFIRM (R518). -/
def execClaimConfirm (act : Bool) (s : State) : Host.Outcome State Fault Refusal :=
  runDev s (fun d => claimConfirm d s.mem s.boot act)

/-- PAIR_OK_IN_RISE (R517). -/
def execPairOkInRise (act : Bool) (s : State) : Host.Outcome State Fault Refusal := runDev s (fun d => okRises d act)

/-- A pulse seen on the reference camera's bus is also the reference trigger at which the position state of a join takes
effect (R523, R539 step 2). -/
def pairBusPulse (d : Dev) (m : Mem) (b : Boot) (nn : Nat) (seen : Bool) : Dev :=
  let d := busPulse d m b nn seen
  if seen && decide (nn = ff d (ra pgPos 0x100) 11 8) && decide (pairState d = 2) then joinEffect d m b else d

/-- TRIGGER_BUS_PULSE (R523). -/
def execTriggerBusPulse (nn : Fin 16) (seen : Bool) (s : State) : Host.Outcome State Fault Refusal :=
  runDev s (fun d => pairBusPulse d s.mem s.boot nn seen)

/-- ENC_MISMATCH (R524). -/
def execEncMismatch (s : State) : Host.Outcome State Fault Refusal := runDev s encCheck

/-- DIGEST_SEND (R526). -/
def execDigestSend (s : State) : Host.Outcome State Fault Refusal := runDev s digestSend

/-- DIGEST (R526). -/
def execDigest (words : List Dword) (s : State) : Host.Outcome State Fault Refusal := runDev s (fun d => takeDigest d words)

/-- DIGEST_TIMEOUT (R527). -/
def execDigestTimeout (s : State) : Host.Outcome State Fault Refusal := runDev s digestLate

/-- PAIR_LINK_LOST (R528). -/
def execPairLinkLost (s : State) : Host.Outcome State Fault Refusal := runDev s (fun d => linkSilent d s.mem s.boot)

/-- HEARTBEAT (R529). -/
def execHeartbeat (words : List Dword) (s : State) : Host.Outcome State Fault Refusal :=
  runDev s (fun d => takeHeartbeat d words)

/-- HEARTBEAT_SEND (R529). -/
def execHeartbeatSend (s : State) : Host.Outcome State Fault Refusal := runDev s sendHeartbeat

/-- GATE_TIMEOUT (R529). -/
def execGateTimeout (s : State) : Host.Outcome State Fault Refusal := runDev s (fun d => gateTimeout d s.mem s.boot)

/-- REPORT (R530). -/
def execReport (words : List Dword) (s : State) : Host.Outcome State Fault Refusal := runDev s (fun d => takeReport d words)

/-- REPORT_SEND (R530). -/
def execReportSend (s : State) : Host.Outcome State Fault Refusal := runDev s sendReport

/-- TAKEOVER: PAIR_OK_IN falls (R532). -/
def execTakeover (s : State) : Host.Outcome State Fault Refusal := runDev s (fun d => okFalls d s.mem)

/-- SWAP (R536). -/
def execSwap (value : Word) (s : State) : Host.Outcome State Fault Refusal := runDev s (fun d => pairCtrl d value)

/-- SWAP_FRAME (R541). -/
def execSwapFrame (words : List Dword) (s : State) : Host.Outcome State Fault Refusal := runDev s (fun d => takeSwap d words)

/-- SWAP_EFFECT (R536). -/
def execSwapEffect (s : State) : Host.Outcome State Fault Refusal := runDev s swapEffect

/-- A join fails: cause 1 a refusal, 2 a full catch-up region, 3 the time is up, 4 a digest, 5 a change of the active
part's role (R540, R542). -/
def joinEnds (d : Dev) (m : Mem) (b : Boot) (cause : Nat) : Dev :=
  if pairState d ≠ 2 then d
  else match cause with
  | 0 => d
  | 1 => joinRefused d
  | 3 => joinFails (elapse d m b (d.pair.joinAt + 400000 * rf d (pairA 0x138) 15 0)) 3
  | _ => joinFails d cause

/-- JOIN_FAIL (R540). -/
def execJoinFail (cause : Fin 6) (s : State) : Host.Outcome State Fault Refusal :=
  runDev s (fun d => joinEnds d s.mem s.boot cause)

/-- REJOIN (R542). -/
def execRejoin (s : State) : Host.Outcome State Fault Refusal := runDev s rejoin

/-- PAIR_TIME (R525). -/
def execPairTime (words : List Dword) (ingress : WireTime) (s : State) : Host.Outcome State Fault Refusal :=
  runDev s (fun d => takePairTime d words ingress)

/-- PAIR_TIME_SEND (R525). -/
def execPairTimeSend (s : State) : Host.Outcome State Fault Refusal := runDev s pairSync

end Sys2Proof.Machine
end

