-- ==== Sys2Proof/Machine/CmdTime.lean ====
section
/-!
DEFINITION. The meanings of the commands of the time base and PTP (R493 to R513).
-/

namespace Sys2Proof.Machine

/-- TIME_ADJ: a write of TIME_ADJ_HI (R495). -/
def execTimeAdj (hi : Word) (s : State) : Host.Outcome State Fault Refusal :=
  runDev s (fun d => timeAdjWrite d hi.toNat)

/-- Slewing drains what is left of an adjustment, if the rate leaves any room for it (R493, R495). -/
def adjDone (d : Dev) (m : Mem) (b : Boot) : Dev :=
  let room := (timeRoom d d.time.adj).toNat
  if room = 0 then d else elapse d m b (d.cycle + (d.time.adj.natAbs + room - 1) / room)

/-- ADJ_DONE (R495). -/
def execAdjDone (s : State) : Host.Outcome State Fault Refusal := runDev s (fun d => adjDone d s.mem s.boot)

/-- SET_GO (R498, R499). -/
def execSetGo (force : Bool) (s : State) : Host.Outcome State Fault Refusal := runDev s (fun d => timeSet d force)

/-- STEP_GO (R498, R499). -/
def execStepGo (force : Bool) (s : State) : Host.Outcome State Fault Refusal :=
  runDev s (fun d => timeStepGo d force)

/-- SERVO_STEP (R498, R501). -/
def execServoStep (sec ns frac : Nat) (offsetNs : Int) (s : State) : Host.Outcome State Fault Refusal :=
  runDev s (fun d => servoSet d sec ns frac offsetNs)

/-- PTP_SYNC (R505, R506). -/
def execPtpSync (msg : SyncMsg) (s : State) : Host.Outcome State Fault Refusal := runDev s (fun d => ptpUseSync d msg)

/-- ANNOUNCE (R504). -/
def execAnnounce (msg : AnnounceMsg) (s : State) : Host.Outcome State Fault Refusal :=
  runDev s (fun d => ptpAnnounce d msg)

/-- SRC_LOST (R505). -/
def execSrcLost (s : State) : Host.Outcome State Fault Refusal :=
  runDev s (fun d => ptpLost (elapse d s.mem s.boot (srcLostAt d)))

/-- TC_FORWARD (R508 to R510). -/
def execTcForward (f : BridgeFrame) (s : State) : Host.Outcome State Fault Refusal := runDev s (fun d => tcBridge d f)

/-- PTP_SYNC_INTERVAL (R503). -/
def execPtpSyncInterval (s : State) : Host.Outcome State Fault Refusal := runDev s ptpSyncOut

/-- PTP_ANNOUNCE_INTERVAL (R504). -/
def execPtpAnnounceInterval (s : State) : Host.Outcome State Fault Refusal := runDev s ptpAnnounceOut

/-- DELAY_REQ_INTERVAL (R503, R506). -/
def execDelayReqInterval (s : State) : Host.Outcome State Fault Refusal := runDev s ptpDelayReq

/-- DELAY_REQ (R503). -/
def execDelayReq (port : Fin 2) (domain : BitVec 8) (identity : Dword) (correction : Int) (s : State) :
    Host.Outcome State Fault Refusal :=
  runDev s (fun d => ptpAnswer d port domain identity correction)

/-- DELAY_RESP (R503, R505). -/
def execDelayResp (port : Fin 2) (domain : BitVec 8) (receipt : WireTime) (correction : Int) (s : State) :
    Host.Outcome State Fault Refusal :=
  runDev s (fun d => ptpDelayResp d port domain receipt correction)

end Sys2Proof.Machine
end

