-- ==== Sys2Proof/Machine/CmdWale.lean ====
section
/-!
DEFINITION. The meanings of the commands of wales and of the coil tracker (R72, R73, R162, R190 to R320).
-/

namespace Sys2Proof.Machine

/-- A command that moves lines through a wale or the tracker; a part that has stopped takes no line (R65, R595). -/
def runLines (s : State) (f : Dev → Dev) : Host.Outcome State Fault Refusal :=
  runDev s (fun d => if d.stopped then d else f d)

/-- WALE_TAKE_LINE: the wale takes a complete line from an elastic store (R162, R173 to R184). -/
def execWaleTakeLine (w : Fin 16) (ctx : Bool) (s : State) : Host.Outcome State Fault Refusal :=
  runLines s (fun d => waleTake d s.mem w ctx.toNat)

/-- ALIGNED_LINE (R190 to R204). -/
def execAlignedLine (w : Fin 16) (ctx : Bool) (s : State) : Host.Outcome State Fault Refusal :=
  runLines s (fun d => alignedLine d s.mem w ctx.toNat)

/-- A completed packet is written to its buffer and, where asked for, to its host ring (R202, R204). -/
def statReady (d : Dev) (m : Mem) (w x : Nat) : Dev × Mem :=
  let r := statWrite d m w x
  match r.2.2 with
  | some (a, bytes) => if bitOf (BitVec.ofNat 32 a.cfg) 25 then statDma r.1 r.2.1 w bytes else (r.1, r.2.1)
  | none => (r.1, r.2.1)

/-- STAT_READY (R202, R204). -/
def execStatReady (w : Fin 16) (ctx : Bool) (s : State) : Host.Outcome State Fault Refusal :=
  runMem s (fun d m => statReady d m w ctx.toNat)

/-- CONTRIBUTION (R216 to R224, R231). -/
def execContribution (w : Fin 16) (ctx : Bool) (s : State) : Host.Outcome State Fault Refusal :=
  runLines s (fun d => formContrib d w ctx.toNat)

/-- STAGGER_READBACK (R222, R391). -/
def execStaggerReadback (w : Fin 16) (ctx : Bool) (s : State) : Host.Outcome State Fault Refusal :=
  runLines s (fun d => readBack d s.mem w ctx.toNat)

/-- SYSTEM_LINE_RELEASE (R226 to R229). -/
def execSystemLineRelease (ss : Fin 8) (s : State) : Host.Outcome State Fault Refusal :=
  runLines s (fun d => releaseNext d ss)

/-- STITCH_WAIT ends for a line of station `ss`: it is released with those before it (R230). -/
def stitchTimeout (d : Dev) (m : Mem) (b : Boot) (ss : Nat) : Dev :=
  match firstTimeout d ss with
  | none => d
  | some (n, at') => releaseUpTo ss n (d.refLines.length + 1) (elapse d m b at')

/-- STITCH_TIMEOUT (R230). -/
def execStitchTimeout (ss : Fin 8) (s : State) : Host.Outcome State Fault Refusal :=
  runLines s (fun d => stitchTimeout d s.mem s.boot ss)

/-- RUN_FORMATION (R260 to R270). -/
def execRunFormation (w : Fin 16) (ctx : Bool) (s : State) : Host.Outcome State Fault Refusal :=
  runLines s (fun d => formRuns d w ctx.toNat)

/-- The newest line that segmentation has thresholded in context `x`. -/
def lastThresholded (d : Dev) (w x : Nat) : Option Nat :=
  (((sgs d w x).hist ++ (sgs d w x).pend).getLast?).map (fun l => l.n)

/-- A system block ends once its last line is thresholded: thresholds move, and the credit reloads when no line of the
block still waits to form its runs (R255, R256, R267). -/
def thresholdUpdate (d : Dev) (w x : Nat) : Dev :=
  match lastThresholded d w x with
  | none => d
  | some n =>
    if n % 256 = 255 ∧ (sgs d w x).block = some (n / 256) then
      let d := blockEnd d w x
      let s := sgs d w x
      if s.pend.isEmpty then
        let d := pokeBit (poke d (segA w x 0x114) 23 0 (s.owned * 32)) (segA w x 0x110) 30 false
        setSgs d w x { s with credBlock := some (n / 256 + 1) }
      else d
    else d

/-- THRESHOLD_UPDATE (R255, R256, R267). -/
def execThresholdUpdate (w : Fin 16) (ctx : Bool) (s : State) : Host.Outcome State Fault Refusal :=
  runLines s (fun d => thresholdUpdate d w ctx.toNat)

/-- The CRC of a coil context with its handle, as a digest covers it (R526). -/
def coilCrc (h : Nat) (c : Coil) : Nat := crc32c (leBytes 4 h ++ (coilWords c).flatMap (fun w => leBytes 8 w.toNat))

/-- The XOR over the coil contexts that a line commit changed (R526). -/
def changedXor (old new : Dev) : Nat :=
  new.trk.handles.foldl (fun a e =>
    match openOf e.2 with
    | none => a
    | some c => if openOf (hget old e.1) = some c then a else Nat.xor a (coilCrc e.1 c)) 0

/-- The tracker labels and commits the next line of a station (R274); a member of a Pairing gathers its digest
(R526). -/
def trackerLine (d : Dev) (m : Mem) (ss : Nat) : Dev :=
  let t := trackLine m d ss
  if pairEn t then { t with pair := { t.pair with xorC := Nat.xor t.pair.xorC (changedXor d t) } } else t

/-- TRACKER_LINE (R274 to R292, R294, R308, R310). -/
def execTrackerLine (ss : Fin 8) (s : State) : Host.Outcome State Fault Refusal :=
  runLines s (fun d => trackerLine d s.mem ss)

/-- UNPARK (R295, R297). -/
def execUnpark (handle : Nat) (uncorrectable : Bool) (s : State) : Host.Outcome State Fault Refusal :=
  runDev s (fun d => unparkNeeded d handle uncorrectable)

/-- SEAM_LINE (R310, R311, R313, R317). -/
def execSeamLine (src : BitVec 6) (words : List Dword) (s : State) : Host.Outcome State Fault Refusal :=
  runDev s (fun d => fragArrive s.mem d src.toNat words)

/-- SEAM_JOIN (R315). -/
def execSeamJoin (src : BitVec 6) (words : List Dword) (s : State) : Host.Outcome State Fault Refusal :=
  runDev s (fun d => joinArrive d src.toNat words)

/-- SHARE_CLOSE (R313, R314, R316). -/
def execShareClose (src : BitVec 6) (words : List Dword) (s : State) : Host.Outcome State Fault Refusal :=
  runDev s (fun d => sumArrive s.mem d src.toNat words false)

/-- SHARE_CUT (R313, R316). -/
def execShareCut (src : BitVec 6) (words : List Dword) (s : State) : Host.Outcome State Fault Refusal :=
  runDev s (fun d => sumArrive s.mem d src.toNat words true)

/-- SEAM_FLUSH (R318, R319). -/
def execSeamFlush (src : BitVec 6) (words : List Dword) (s : State) : Host.Outcome State Fault Refusal :=
  runDev s (fun d => seamFlushArrive s.mem d src.toNat words)

/-- SEAM_BROKEN: a fragment is overdue (R318). -/
def execSeamBroken (right : Bool) (s : State) : Host.Outcome State Fault Refusal :=
  runDev s (fun d => if overdue d right then breakSide s.mem d right else d)

/-- Sides whose BROKEN bit is written with 1 are armed again (R318). -/
def seamRearm (d : Dev) (left right : Bool) : Dev :=
  let d := if left then rearm d false else d
  if right then rearm d true else d

/-- SEAM_REARM (R318). -/
def execSeamRearm (left right : Bool) (s : State) : Host.Outcome State Fault Refusal :=
  runDev s (fun d => seamRearm d left right)

/-- FRONTIER_SCRUB (R282). -/
def execFrontierScrub (ss : Fin 8) (s : State) : Host.Outcome State Fault Refusal := runDev s (fun d => scrub d ss)

end Sys2Proof.Machine
end

