-- ==== Sys2Proof/Machine/CmdWicker.lean ====
section
/-!
DEFINITION. The meanings of the commands of Wicker, of the interrupt controller and of snapshots (R544 to R571, R615,
R616).
-/

namespace Sys2Proof.Machine

/-- PSEL_WRITE of row `pp` (R546). -/
def execPselWrite (pp : Fin 96) (value : Word) (s : State) : Host.Outcome State Fault Refusal :=
  runDev s (fun d => pselWrite d (0x180 + 4 * pp) value.toNat)

/-- WKR_ROUTING_WRITE at a page offset of a matrix word or a cell (R555, R557, R558). -/
def execWkrRoutingWrite (off : Nat) (value : Word) (s : State) : Host.Outcome State Fault Refusal :=
  runDev s (fun d => if isRouting off && decide (off % 4 = 0) then routingWrite d off value else d)

/-- GROUP_EDGE: Wicker keeps working in deep sleep (R552, R553, R560). -/
def execGroupEdge (gg : Fin 16) (on off : Bool) (s : State) : Host.Outcome State Fault Refusal :=
  anyDev s (fun d => if d.life = .up ∨ d.life = .asleep then groupEdge d gg on off else d)

/-- CELL_EDGE, with the levels of the balls WKR_IN at it (R555, R560). -/
def execCellEdge (nn : Fin 32) (balls : BitVec 8) (s : State) : Host.Outcome State Fault Refusal :=
  anyDev s (fun d => if d.life = .up ∨ d.life = .asleep then cellEdge (setBalls d balls.toNat) nn else d)

/-- A rising edge at the SNAPSHOT consumer (R70, R548, R551). -/
def snapshotEdge (d : Dev) (m : Mem) (b : Boot) (slot : Nat) : Dev :=
  let r := slotEdge d slot 0x021 (snapBusy d)
  if r.2 then snapTrigger (elapse r.1 m b (d.cycle + 2)) b 2 else r.1

/-- SNAPSHOT: a rising edge at a slot that feeds it (R70, R548 to R552). -/
def execSnapshot (slot : Fin 96) (s : State) : Host.Outcome State Fault Refusal :=
  runDev s (fun d => snapshotEdge d s.mem s.boot slot)

/-- A level at the input of an interrupt source. In deep sleep only the latches of IRQ_W see it (R560, R561). -/
def interruptArrival (d : Dev) (src : Nat) (level : Bool) : Dev :=
  match d.life with
  | .up => arrive d src level
  | .asleep =>
    if 128 ≤ src ∧ src < 160 ∧ level ∧ !d.wkr.latched.contains (src - 128) then
      { d with wkr := { d.wkr with latched := d.wkr.latched ++ [src - 128] } }
    else d
  | _ => d

/-- INTERRUPT_ARRIVAL: an event of source `src`; `level` is the level of a Wicker consumer IRQ_W (R560 to R563, R567,
R569). -/
def execInterruptArrival (src : Fin 512) (level : Bool) (s : State) : Host.Outcome State Fault Refusal :=
  anyDev s (fun d => interruptArrival d src level)

/-- COMPLETE by target `tt` (R564 to R566, R568). -/
def execComplete (tt : Fin 5) (src : Fin 512) (s : State) : Host.Outcome State Fault Refusal :=
  runDev s (fun d => completeSrc d tt src)

/-- SWI_SET (R570). -/
def execSwiSet (bits : Word) (s : State) : Host.Outcome State Fault Refusal := runDev s (fun d => swiSet d bits)

/-- SWI_CLEAR (R570). -/
def execSwiClear (bits : Word) (s : State) : Host.Outcome State Fault Refusal := runDev s (fun d => swiClear d bits)

/-- SNAP_GO (R70, R615). -/
def execSnapGo (s : State) : Host.Outcome State Fault Refusal := runDev s (fun d => snapTrigger d s.boot 1)

/-- SNAPSHOT_COMPLETE (R616, R623). -/
def execSnapshotComplete (s : State) : Host.Outcome State Fault Refusal := runDev s (fun d => snapDone d s.boot)

end Sys2Proof.Machine
end

