-- ==== Sys2Proof/Machine/Dispatch.lean ====
section
/-! DEFINITION. One arm per command: each calls its meaning. The queue is not touched here. -/

namespace Sys2Proof.Machine

/-- The effect of a command on everything but the queue. -/
def exec (i : Instr) (s : State) : Host.Outcome State Fault Refusal :=
  match i with
  | .encoderEdge c a b samples => Sys2Proof.Machine.execEncoderEdge c a b samples s
  | .dueInstant u => Sys2Proof.Machine.execDueInstant u s
  | .latePulse u => Sys2Proof.Machine.execLatePulse u s
  | .timerTrigger nn => Sys2Proof.Machine.execTimerTrigger nn s
  | .trigNn nn slot => Sys2Proof.Machine.execTrigNn nn slot s
  | .los c => Sys2Proof.Machine.execLos c s
  | .ssiFrame c f => Sys2Proof.Machine.execSsiFrame c f s
  | .stale c => Sys2Proof.Machine.execStale c s
  | .index c => Sys2Proof.Machine.execIndex c s
  | .idxCorr c => Sys2Proof.Machine.execIdxCorr c s
  | .speedOutput c => Sys2Proof.Machine.execSpeedOutput c s
  | .alignGo => Sys2Proof.Machine.execAlignGo s
  | .encAlign slot => Sys2Proof.Machine.execEncAlign slot s
  | .recipeCommit page => Sys2Proof.Machine.execRecipeCommit page s
  | .commitNow => Sys2Proof.Machine.execCommitNow s
  | .arm page value => Sys2Proof.Machine.execArm page value s
  | .disarm page => Sys2Proof.Machine.execDisarm page s
  | .registerWrite a => Sys2Proof.Machine.execRegisterWrite a s
  | .srst page => Sys2Proof.Machine.execSrst page s
  | .randPowerGate page en => Sys2Proof.Machine.execRandPowerGate page en s
  | .rootLockLost => Sys2Proof.Machine.execRootLockLost s
  | .weaverParity ctx wale rand weaver colour => Sys2Proof.Machine.execWeaverParity ctx wale rand weaver colour s
  | .stakeIsolated die detail => Sys2Proof.Machine.execStakeIsolated die detail s
  | .slathFault detail => Sys2Proof.Machine.execSlathFault detail s
  | .laneLock n lane skew => Sys2Proof.Machine.execLaneLock n lane skew s
  | .laneLockLoss n lane => Sys2Proof.Machine.execLaneLockLoss n lane s
  | .slip n lane => Sys2Proof.Machine.execSlip n lane s
  | .lineStart n h => Sys2Proof.Machine.execLineStart n h s
  | .videoPacket n p => Sys2Proof.Machine.execVideoPacket n p s
  | .lineEnd n => Sys2Proof.Machine.execLineEnd n s
  | .lineMissing n => Sys2Proof.Machine.execLineMissing n s
  | .lineTimeout n => Sys2Proof.Machine.execLineTimeout n s
  | .resendExpiry n => Sys2Proof.Machine.execResendExpiry n s
  | .cameraStall n => Sys2Proof.Machine.execCameraStall n s
  | .gpioMessage n levels => Sys2Proof.Machine.execGpioMessage n levels s
  | .statusMsg n payload => Sys2Proof.Machine.execStatusMsg n payload s
  | .camGpout n k level carried => Sys2Proof.Machine.execCamGpout n k level carried s
  | .scanStart l => Sys2Proof.Machine.execScanStart l s
  | .scanDone l r => Sys2Proof.Machine.execScanDone l r s
  | .ctleDfeUpdate l loop computed => Sys2Proof.Machine.execCtleDfeUpdate l loop computed s
  | .waleTakeLine w ctx => Sys2Proof.Machine.execWaleTakeLine w ctx s
  | .alignedLine w ctx => Sys2Proof.Machine.execAlignedLine w ctx s
  | .statReady w ctx => Sys2Proof.Machine.execStatReady w ctx s
  | .contribution w ctx => Sys2Proof.Machine.execContribution w ctx s
  | .staggerReadback w ctx => Sys2Proof.Machine.execStaggerReadback w ctx s
  | .systemLineRelease ss => Sys2Proof.Machine.execSystemLineRelease ss s
  | .stitchTimeout ss => Sys2Proof.Machine.execStitchTimeout ss s
  | .runFormation w ctx => Sys2Proof.Machine.execRunFormation w ctx s
  | .thresholdUpdate w ctx => Sys2Proof.Machine.execThresholdUpdate w ctx s
  | .trackerLine ss => Sys2Proof.Machine.execTrackerLine ss s
  | .unpark handle uncorrectable => Sys2Proof.Machine.execUnpark handle uncorrectable s
  | .trkFlush => Sys2Proof.Machine.execTrkFlush s
  | .seamLine src words => Sys2Proof.Machine.execSeamLine src words s
  | .seamJoin src words => Sys2Proof.Machine.execSeamJoin src words s
  | .shareClose src words => Sys2Proof.Machine.execShareClose src words s
  | .shareCut src words => Sys2Proof.Machine.execShareCut src words s
  | .seamFlush src words => Sys2Proof.Machine.execSeamFlush src words s
  | .seamBroken right => Sys2Proof.Machine.execSeamBroken right s
  | .seamRearm left right => Sys2Proof.Machine.execSeamRearm left right s
  | .frontierScrub ss => Sys2Proof.Machine.execFrontierScrub ss s
  | .peek handle => Sys2Proof.Machine.execPeek handle s
  | .recordIntake => Sys2Proof.Machine.execRecordIntake s
  | .recordDelivery dd => Sys2Proof.Machine.execRecordDelivery dd s
  | .borderVerdict hi => Sys2Proof.Machine.execBorderVerdict hi s
  | .refineTimeout => Sys2Proof.Machine.execRefineTimeout s
  | .patchWrite => Sys2Proof.Machine.execPatchWrite s
  | .datagramSend port => Sys2Proof.Machine.execDatagramSend port s
  | .heartbeatDatagram port => Sys2Proof.Machine.execHeartbeatDatagram port s
  | .udpResendRequest port fromDst payload => Sys2Proof.Machine.execUdpResendRequest port fromDst payload s
  | .hostInterfaceReset => Sys2Proof.Machine.execHostInterfaceReset s
  | .doorbell prod => Sys2Proof.Machine.execDoorbell prod s
  | .ringConsWrite rr cons => Sys2Proof.Machine.execRingConsWrite rr cons s
  | .commandFetch => Sys2Proof.Machine.execCommandFetch s
  | .fence tag => Sys2Proof.Machine.execFence tag s
  | .nop tag => Sys2Proof.Machine.execNop tag s
  | .regBulkRead tag dmaOk => Sys2Proof.Machine.execRegBulkRead tag dmaOk s
  | .regBulkWrite tag dmaOk => Sys2Proof.Machine.execRegBulkWrite tag dmaOk s
  | .patchFetch tag dmaOk => Sys2Proof.Machine.execPatchFetch tag dmaOk s
  | .recordFetch tag dmaOk => Sys2Proof.Machine.execRecordFetch tag dmaOk s
  | .reprocess tag => Sys2Proof.Machine.execReprocess tag s
  | .completionWrite => Sys2Proof.Machine.execCompletionWrite s
  | .coalTime vector => Sys2Proof.Machine.execCoalTime vector s
  | .chunkWrite nn room => Sys2Proof.Machine.execChunkWrite nn room s
  | .reprocessStart => Sys2Proof.Machine.execReprocessStart s
  | .jobDone slot => Sys2Proof.Machine.execJobDone slot s
  | .lpxPointChange point => Sys2Proof.Machine.execLpxPointChange point s
  | .refreshDue cc rank realTime => Sys2Proof.Machine.execRefreshDue cc rank realTime s
  | .refreshRatePoll cc r0 r1 => Sys2Proof.Machine.execRefreshRatePoll cc r0 r1 s
  | .paybackWindow cc rank => Sys2Proof.Machine.execPaybackWindow cc rank s
  | .bankIdle cc rank bank => Sys2Proof.Machine.execBankIdle cc rank bank s
  | .srReq enter => Sys2Proof.Machine.execSrReq enter s
  | .lpxTrain cc results => Sys2Proof.Machine.execLpxTrain cc results s
  | .oscTrack cc lane taps => Sys2Proof.Machine.execOscTrack cc lane taps s
  | .qdrTrain cc results => Sys2Proof.Machine.execQdrTrain cc results s
  | .fabLinkEnable p cfg => Sys2Proof.Machine.execFabLinkEnable p cfg s
  | .fabLinkUp p good deskewFail partner => Sys2Proof.Machine.execFabLinkUp p good deskewFail partner s
  | .bringupTimeout p => Sys2Proof.Machine.execBringupTimeout p s
  | .fabLinkDown p slip => Sys2Proof.Machine.execFabLinkDown p slip s
  | .frameReceive p f w => Sys2Proof.Machine.execFrameReceive p f w s
  | .nak p f => Sys2Proof.Machine.execNak p f s
  | .credit p f => Sys2Proof.Machine.execCredit p f s
  | .ack p => Sys2Proof.Machine.execAck p s
  | .replayTimeout p => Sys2Proof.Machine.execReplayTimeout p s
  | .hello p f => Sys2Proof.Machine.execHello p f s
  | .helloSend => Sys2Proof.Machine.execHelloSend s
  | .nodeTimeout node serial => Sys2Proof.Machine.execNodeTimeout node serial s
  | .election => Sys2Proof.Machine.execElection s
  | .assign p f => Sys2Proof.Machine.execAssign p f s
  | .topoChange => Sys2Proof.Machine.execTopoChange s
  | .fabRouteCommit => Sys2Proof.Machine.execFabRouteCommit s
  | .heldFrameDrop p => Sys2Proof.Machine.execHeldFrameDrop p s
  | .refIdle => Sys2Proof.Machine.execRefIdle s
  | .refLineArrival src words => Sys2Proof.Machine.execRefLineArrival src words s
  | .refLineEffect => Sys2Proof.Machine.execRefLineEffect s
  | .refLost => Sys2Proof.Machine.execRefLost s
  | .relayPublish r => Sys2Proof.Machine.execRelayPublish r s
  | .relaySampleArrival r src words => Sys2Proof.Machine.execRelaySampleArrival r src words s
  | .relaySampleEffect r => Sys2Proof.Machine.execRelaySampleEffect r s
  | .syncSend => Sys2Proof.Machine.execSyncSend s
  | .sync p f ingress => Sys2Proof.Machine.execSync p f ingress s
  | .pdelayReq p => Sys2Proof.Machine.execPdelayReq p s
  | .pdelayResp p f ingress => Sys2Proof.Machine.execPdelayResp p f ingress s
  | .epochGo value => Sys2Proof.Machine.execEpochGo value s
  | .prepare src words => Sys2Proof.Machine.execPrepare src words s
  | .vote src words => Sys2Proof.Machine.execVote src words s
  | .record src words => Sys2Proof.Machine.execRecord src words s
  | .recordAck src words => Sys2Proof.Machine.execRecordAck src words s
  | .recordAckSend node => Sys2Proof.Machine.execRecordAckSend node s
  | .dest03Resend => Sys2Proof.Machine.execDest03Resend s
  | .timeAdj hi => Sys2Proof.Machine.execTimeAdj hi s
  | .adjDone => Sys2Proof.Machine.execAdjDone s
  | .setGo force => Sys2Proof.Machine.execSetGo force s
  | .stepGo force => Sys2Proof.Machine.execStepGo force s
  | .servoStep sec ns frac offsetNs => Sys2Proof.Machine.execServoStep sec ns frac offsetNs s
  | .ptpSync m => Sys2Proof.Machine.execPtpSync m s
  | .announce m => Sys2Proof.Machine.execAnnounce m s
  | .srcLost => Sys2Proof.Machine.execSrcLost s
  | .tcForward f => Sys2Proof.Machine.execTcForward f s
  | .claimDelay act => Sys2Proof.Machine.execClaimDelay act s
  | .claimConfirm act => Sys2Proof.Machine.execClaimConfirm act s
  | .mirror words => Sys2Proof.Machine.execMirror words s
  | .mirrorApply => Sys2Proof.Machine.execMirrorApply s
  | .mirrorAck words => Sys2Proof.Machine.execMirrorAck words s
  | .forward words => Sys2Proof.Machine.execForward words s
  | .triggerBusPulse nn seen => Sys2Proof.Machine.execTriggerBusPulse nn seen s
  | .encMismatch => Sys2Proof.Machine.execEncMismatch s
  | .digestSend => Sys2Proof.Machine.execDigestSend s
  | .digest words => Sys2Proof.Machine.execDigest words s
  | .digestTimeout => Sys2Proof.Machine.execDigestTimeout s
  | .pairLinkLost => Sys2Proof.Machine.execPairLinkLost s
  | .heartbeat words => Sys2Proof.Machine.execHeartbeat words s
  | .gateTimeout => Sys2Proof.Machine.execGateTimeout s
  | .report words => Sys2Proof.Machine.execReport words s
  | .takeover => Sys2Proof.Machine.execTakeover s
  | .swap value => Sys2Proof.Machine.execSwap value s
  | .swapFrame words => Sys2Proof.Machine.execSwapFrame words s
  | .swapEffect => Sys2Proof.Machine.execSwapEffect s
  | .join words => Sys2Proof.Machine.execJoin words s
  | .joinFail cause => Sys2Proof.Machine.execJoinFail cause s
  | .rejoin => Sys2Proof.Machine.execRejoin s
  | .pairTime words ingress => Sys2Proof.Machine.execPairTime words ingress s
  | .updateFragment words => Sys2Proof.Machine.execUpdateFragment words s
  | .pselWrite pp value => Sys2Proof.Machine.execPselWrite pp value s
  | .wkrRoutingWrite off value => Sys2Proof.Machine.execWkrRoutingWrite off value s
  | .groupEdge gg on off => Sys2Proof.Machine.execGroupEdge gg on off s
  | .cellEdge nn balls => Sys2Proof.Machine.execCellEdge nn balls s
  | .snapshot slot => Sys2Proof.Machine.execSnapshot slot s
  | .interruptArrival src level => Sys2Proof.Machine.execInterruptArrival src level s
  | .complete tt src => Sys2Proof.Machine.execComplete tt src s
  | .swiSet bits => Sys2Proof.Machine.execSwiSet bits s
  | .swiClear bits => Sys2Proof.Machine.execSwiClear bits s
  | .reqRun => Sys2Proof.Machine.execReqRun s
  | .reqIdle => Sys2Proof.Machine.execReqIdle s
  | .reqDeepSleep => Sys2Proof.Machine.execReqDeepSleep s
  | .wake slot => Sys2Proof.Machine.execWake slot s
  | .hostWake => Sys2Proof.Machine.execHostWake s
  | .timerWake => Sys2Proof.Machine.execTimerWake s
  | .motionWake => Sys2Proof.Machine.execMotionWake s
  | .sensorRead readings powers => Sys2Proof.Machine.execSensorRead readings powers s
  | .throttle => Sys2Proof.Machine.execThrottle s
  | .powerLimit unit average => Sys2Proof.Machine.execPowerLimit unit average s
  | .shutdownReq => Sys2Proof.Machine.execShutdownReq s
  | .thermTrip => Sys2Proof.Machine.execThermTrip s
  | .tripComparator => Sys2Proof.Machine.execTripComparator s
  | .tripReleaseCheck => Sys2Proof.Machine.execTripReleaseCheck s
  | .avsUpdate d slack mv => Sys2Proof.Machine.execAvsUpdate d slack mv s
  | .ageingMeasure d count => Sys2Proof.Machine.execAgeingMeasure d count s
  | .ageingAppend => Sys2Proof.Machine.execAgeingAppend s
  | .calCheck => Sys2Proof.Machine.execCalCheck s
  | .calGo classes => Sys2Proof.Machine.execCalGo classes s
  | .calDone t r => Sys2Proof.Machine.execCalDone t r s
  | .monBinSel mm => Sys2Proof.Machine.execMonBinSel mm s
  | .correctedFault cls location inWale => Sys2Proof.Machine.execCorrectedFault cls location inWale s
  | .rowRemap die location => Sys2Proof.Machine.execRowRemap die location s
  | .errorArrival e => Sys2Proof.Machine.execErrorArrival e s
  | .errcDone seq => Sys2Proof.Machine.execErrcDone seq s
  | .snapGo => Sys2Proof.Machine.execSnapGo s
  | .powerOnReset side testEn refRootOk twinOk twinAct => Sys2Proof.Machine.execPowerOnReset side testEn refRootOk twinOk twinAct s
  | .supplyRailLoss rail => Sys2Proof.Machine.execSupplyRailLoss rail s
  | .warmReset => Sys2Proof.Machine.execWarmReset s
  | .watchdogExpiry => Sys2Proof.Machine.execWatchdogExpiry s
  | .updOpen r => Sys2Proof.Machine.execUpdOpen r s
  | .updWrite r => Sys2Proof.Machine.execUpdWrite r s
  | .program => Sys2Proof.Machine.execProgram s
  | .close r => Sys2Proof.Machine.execClose r s
  | .abort r => Sys2Proof.Machine.execAbort r s
  | .status r => Sys2Proof.Machine.execStatus r s
  | .sessionTimeout => Sys2Proof.Machine.execSessionTimeout s
  | .activate r force => Sys2Proof.Machine.execActivate r force s
  | .managementRestartDone => Sys2Proof.Machine.execManagementRestartDone s
  | .mcGo => Sys2Proof.Machine.execMcGo s
  | .microcodeChange => Sys2Proof.Machine.execMicrocodeChange s
  | .freezeRecipe => Sys2Proof.Machine.execFreezeRecipe s
  | .settingsWrite => Sys2Proof.Machine.execSettingsWrite s
  | .goodStart => Sys2Proof.Machine.execGoodStart s
  | .inputRecovers c a b => Sys2Proof.Machine.execInputRecovers c a b s
  | .rootLockReturns => Sys2Proof.Machine.execRootLockReturns s
  | .refRootOk => Sys2Proof.Machine.execRefRootOk s
  | .ethernetLinkDown port => Sys2Proof.Machine.execEthernetLinkDown port s
  | .ethernetLinkUp port => Sys2Proof.Machine.execEthernetLinkUp port s
  | .relayRefLoss r => Sys2Proof.Machine.execRelayRefLoss r s
  | .assignRepeat => Sys2Proof.Machine.execAssignRepeat s
  | .nakRepeat p => Sys2Proof.Machine.execNakRepeat p s
  | .pairOkInRise act => Sys2Proof.Machine.execPairOkInRise act s
  | .heartbeatSend => Sys2Proof.Machine.execHeartbeatSend s
  | .reportSend => Sys2Proof.Machine.execReportSend s
  | .pairTimeSend => Sys2Proof.Machine.execPairTimeSend s
  | .snapshotComplete => Sys2Proof.Machine.execSnapshotComplete s
  | .jobLine slot => Sys2Proof.Machine.execJobLine slot s
  | .ptpSyncInterval => Sys2Proof.Machine.execPtpSyncInterval s
  | .ptpAnnounceInterval => Sys2Proof.Machine.execPtpAnnounceInterval s
  | .delayReqInterval => Sys2Proof.Machine.execDelayReqInterval s
  | .delayReq port domain identity correction => Sys2Proof.Machine.execDelayReq port domain identity correction s
  | .delayResp port domain receipt correction => Sys2Proof.Machine.execDelayResp port domain receipt correction s

end Sys2Proof.Machine
end

