-- ==== Sys2Proof/Machine/Tick.lean ====
section
/-! DEFINITION. What passes with no command waiting: one control-clock edge (DESIGN CHOICE, log 5). -/

namespace Sys2Proof.Machine

/-- One control-clock edge: the time counter advances, and spread counts step (R45, R103, R493). -/
def idleEdge (s : State) : State := { s with dev := elapse s.dev s.mem s.boot (s.dev.cycle + 1) }

end Sys2Proof.Machine
end

