-- ==== Sys2Proof/Machine/Step.lean ====
section
/-! DEFINITION. One step: the command at the front of the queue, or one control-clock edge. -/

namespace Sys2Proof.Machine

/-- Put the command that a table word spells at the front of the queue. -/
def State.withFetchWord (s : State) (nbits w : Nat) : State :=
  match decodeTableWord nbits w with
  | none => s
  | some i => { s with pending := i :: s.pending }

/-- Take the command at the front of the queue and carry it out; on an empty queue one control-clock edge
passes (DESIGN CHOICE, log 5). -/
def step (s : State) : Host.Outcome State Fault Refusal :=
  match s.pending with
  | [] => .next (idleEdge s)
  | i :: r => exec i { s with pending := r }

end Sys2Proof.Machine
end

