-- ==== Sys2Proof/Safety.lean ====
section
/-!
DEFINITION. What a safe run is, and the terms in which statements speak of states: what holds in every state that a run
reaches, and what a command leaves as it was.
-/

namespace Sys2Proof.Machine

/-- A step that neither faults nor refuses. -/
def Safe (s : State) : Prop := ∃ t, step s = .next t

/-- The boot record names three distinct slots (R631). -/
def slotsDistinct (b : Boot) : Prop := b.active ≠ b.previous ∧ b.active ≠ b.staging ∧ b.previous ≠ b.staging

/-- What holds of the memories and of what outlives a reset: every memory is in canonical form, and the slots are
distinct. -/
def Kept (r : Dev × Mem × Boot) : Prop := Memory.wf r.2.1 = true ∧ slotsDistinct r.2.2

/-- The invariant of a state. -/
def State.Inv (s : State) : Prop := Kept (s.dev, s.mem, s.boot)

/-- Every register but those listed reads as it did. -/
def SameRegs (d e : Dev) (as : List Nat) : Prop := ∀ a, a ∉ as → reg e a = reg d a

/-- Beside what registers read, nothing of the part changed but which events fired and the log of what leaves. -/
def OnlyShown (d e : Dev) : Prop :=
  { e with regs := d.regs, wkr := { e.wkr with fired := d.wkr.fired }, out := d.out } = d

/-- The registers listed may read otherwise, and events may have fired; nothing else of the part changed. -/
def OnlyRegs (d e : Dev) (as : List Nat) : Prop := SameRegs d e as ∧ OnlyShown d e

/-- `s` with the part replaced. -/
abbrev State.withDev (s : State) (d : Dev) : State := { s with dev := d }

/-- `s` with the part, the memories and what outlives a reset replaced. -/
abbrev State.put (s : State) (r : Dev × Mem × Boot) : State := { s with dev := r.1, mem := r.2.1, boot := r.2.2 }

end Sys2Proof.Machine
end

