-- ==== Sys2Proof/Certificates/Slice0/Obligations.lean ====
section
/-!
DEFINITION. What is claimed of the part: that every command completes and how, what holds in every state, and what the
rules of the specification say of registers, memories, queues, events and links. Statements only.
-/

open Sys2Proof Sys2Proof.Machine

/-! ## Every command completes

One statement for each group of commands. A command that acts at an instant of its own lets the part's clock run up to it
(`elapse`, the model's own, DESIGN CHOICE, log 5); what stands beside it in a clause is the command's effect by its rule. -/

/-- Encoders, compare units and trigger outputs (R93 to R130). -/
def Obligations.EncoderCommandsComplete : Prop :=
  ∀ s : State, s.dev.life = .up →
    let d := s.dev; let m := s.mem; let b := s.boot
    (∀ c x y n, exec (.encoderEdge c x y n) s = .next (s.withDev (encBatch d m b c x y n))) ∧
    (∀ (u : Fin 24) t, (cmpu d u).due = some t →
      let e := elapse d m b t
      (cmpu e u).due = some t → cmpOn e.force u = true →
      exec (.dueInstant u) s = .next (s.withDev (settle m b (eachUnit fireUnit (dueOn e t) e)))) ∧
    (∀ u : Fin 24, (cmpu d u).lateWait = true →
      let e := elapse d m b (((cmpu d u).tFire.getD 0) + ff d (cmpA u 0) 15 0)
      (cmpu e u).lateWait = true → tooSoon e u = false →
      exec (.latePulse u) s = .next (s.withDev (settle m b (fireLate e u)))) ∧
    (∀ nn : Fin 16, ff d (trgA nn 0) 28 27 = 1 →
      let e := elapse d m b (tat d.trg nn).timerAt
      ff e (trgA nn 0) 28 27 = 1 →
      let e' := { e with trg := tmod e.trg nn (fun x => { x with timerAt := x.timerAt + (inForce e (trgA nn 4)).toNat }) }
      exec (.timerTrigger nn) s = .next (s.withDev (outsideTrigger e' m b nn))) ∧
    (∀ (nn : Fin 16) (slot : Fin 96),
      let r := slotEdge d slot (1 + nn) (targetBusy d (1 + nn))
      let e := elapse r.1 m b (r.1.cycle + 2)
      r.2 = true → trigByWicker e nn = true →
      let e' := setBusy e (1 + nn) (e.cycle + Nat.max 667 (ff e (trgA nn 0) 15 0))
      exec (.trigNn nn slot) s = .next (s.withDev (outsideTrigger e' m b nn))) ∧
    (∀ c : Fin 6, (ench d c).los = false →
      exec (.los c) s = .next (s.withDev
        (raise (encEvt (setEnc d c { (ench d c) with los := true }) c 9) (pgEnc c) 0x20 2 4 c))) ∧
    (∀ (c : Fin 2) f, counting d (4 + c) = true →
      exec (.ssiFrame c f) s = .next (s.withDev (ssiFrame d m b (4 + c) f))) ∧
    (∀ c : Fin 2, counting d (4 + c) = true → ff d (encA (4 + c) 0x140) 4 0 ≤ (ench d (4 + c)).failRun →
      (ench d (4 + c)).stale = false →
      exec (.stale c) s = .next (s.withDev
        (raise (encEvt (setEnc d (4 + c) { (ench d (4 + c)) with stale := true, spread := {} }) (4 + c) 11)
          (pgEnc (4 + c)) 0x21 2 4 (4 + c)))) ∧
    (∀ c : Fin 4, encOn d c = true → idxGate d c = true →
      exec (.index c) s = .next (s.withDev (takeIndex d c (ench d c).count))) ∧
    (∀ (c : Fin 4) k t, (ench d c).corr = some k → (ench d c).corrDue = some t →
      let e := encEvt (idxCount (setEnc d c { (ench d c) with corr := none, corrDue := none }) c 15 8) c 2
      exec (.idxCorr c) s = .next (s.withDev (encJump e m b c ((ench d c).count + k) 2 (-k)))) ∧
    (∀ c : Fin 8, fb d (encA c 0x150) 31 = true → encOn d c = true → fb d (encA c 0x150) 29 = false →
      exec (.speedOutput c) s = .next (s.withDev
        (speedOut (elapse d m b ((ench d c).outAt + (inForce d (encA c 0x154)).toNat)) c))) ∧
    (∀ slot : Fin 96,
      let r := slotEdge d slot 0x020 (targetBusy d 0x020)
      r.2 = true → rb d (encA 0 0x180) 0 = true →
      exec (.encAlign slot) s = .next (s.withDev (alignAll (elapse r.1 m b (d.cycle + 2))))) ∧
    (∀ (c : Fin 6) x y, (ench d c).los = true →
      exec (.inputRecovers c x y) s = .next (s.withDev
        (spreadBy (clearLos d c x y) c 0 (ench d c).spread.period)))

/-- Camera ports, their lanes and those of Limileri ports (R131 to R170, R447, R448). -/
def Obligations.CameraCommandsComplete : Prop :=
  ∀ s : State, s.dev.life = .up →
    let d := s.dev; let m := s.mem; let b := s.boot
    (∀ (n : Fin 16) (k : Fin 6) skew, (tat (skp d n).lanes k).locked = false →
      let e := setSkp d n { (skp d n) with lanes := tmod (skp d n).lanes k (fun l => { l with locked := true, skew := skew }) }
      exec (.laneLock n k skew) s = .next (s.withDev
        (checkLink (poke (pokeBit e (ra (pgSkein n) 0x118) (16 + k) true) (ra (pgSkein n) (0x200 + 0x20 * k)) 31 26 skew) n))) ∧
    (∀ (n : Fin 16) (k : Fin 6), (tat (skp d n).lanes k).locked = true →
      let e := laneOff (blkErr d n k 16) n k
      exec (.laneLockLoss n k) s = .next (s.withDev
        (if portOn e.force n && (usedLanes e.force n).contains k then linkDown e m n else e))) ∧
    (∀ (n : Fin 16) (k : Fin 6), exec (.slip n k) s = .next (s.withDev
      (linkDown (pokeBit d (ra (pgSkein n) 0x118) (24 + k) true) m n))) ∧
    (∀ (n : Fin 16) h, d.stopped = false → (skp d n).linkUp = true → (skp d n).hdr = none →
      exec (.lineStart n h) s = .next (s.withDev (headerFree d m b n d.cycle h))) ∧
    (∀ (n : Fin 16) p, (skp d n).linkUp = true → (skp d n).hdr = none →
      exec (.videoPacket n p) s = .next (s.withDev (packetAt d m n d.cycle p))) ∧
    (∀ n : Fin 16, (skp d n).linkUp = true → (skp d n).hdr = none →
      exec (.lineEnd n) s = .next (s.withDev (endLine d m n))) ∧
    (∀ (n : Fin 16) t, earliest ((waitingSlots (skp d n)).map (fun z => z.winHi)) = some t →
      exec (.lineMissing n) s = .next (s.withDev (closeMissed (elapse d m b t) m n))) ∧
    (∀ (n : Fin 16) t, earliest (((skp d n).slots.filter runsOut).map (fun z => z.deadline)) = some t →
      let e := elapse d m b t
      let late := fun (z : Slot) => runsOut z && decide (z.deadline ≤ t)
      let hit := (skp e n).slots.any (fun z => late z && decide ((skp e n).cur = some z.stamp.camLine))
      let zs := (skp e n).slots.map (fun z => if late z then { z with ended := true, timedOut := true } else z)
      exec (.lineTimeout n) s = .next (s.withDev
        (settleSlots (setSkp e n { (skp e n) with slots := zs, cur := if hit then none else (skp e n).cur, discard := (skp e n).discard || hit }) m n))) ∧
    (∀ (n : Fin 16) t, earliest (((skp d n).slots.filter pendingLine).map (lineExpiry d n)) = some t → (skp d n).hdr = none →
      let gone := ((skp d n).slots.filter pendingLine).filter (fun z => decide (lineExpiry d n z ≤ t))
      exec (.resendExpiry n) s = .next (s.withDev
        (settleSlots (closeSlots (elapse d m b t) n 0x05 (gone.map (fun z => z.stamp.camLine))) m n))) ∧
    (∀ (n : Fin 16) t, (skp d n).lastStart = some t → freeRuns d n = true → portOn d.force n = true → (skp d n).stalled = false →
      let e := elapse d m b (t + wdTime d.force n)
      freeRuns e n = true → portOn e.force n = true → (skp e n).stalled = false → (skp e n).lastStart = some t →
      exec (.cameraStall n) s = .next (s.withDev (skEvt (setSkp e n { (skp e n) with stalled := true }) n 10))) ∧
    (∀ (n : Fin 16) levels, exec (.gpioMessage n levels) s = .next (s.withDev
      (poke d (ra (pgSkein n) 0x120) 3 0 levels.toNat))) ∧
    (∀ (n : Fin 16) w, exec (.statusMsg n w) s = .next (s.withDev
      (skEvt (setReg d (ra (pgSkein n) 0x11C) w) n 11))) ∧
    (∀ (n : Fin 16) (k : Fin 4) level, (skp d n).gpOut.testBit k ≠ level →
      let v := if level then (skp d n).gpOut + 2 ^ k.val else (skp d n).gpOut - 2 ^ k.val
      let e := setSkp d n { (skp d n) with gpOut := v }
      txOn e n = true →
      exec (.camGpout n k level true) s = .next (s.withDev (poke (emit e (.gpioMsg n v)) (ra (pgSkein n) 0x120) 7 4 v)) ∧
      exec (.camGpout n k level false) s = .next (s.withDev (skCount e n 12))) ∧
    (∀ l, (laneTbl d l).2.contains (laneAt l).2 = false → throttleStep d = 0 →
      exec (.scanStart l) s = .next (s.withDev
        (scanBusy (setLaneTbl d l (laneTbl d l).1 ((laneTbl d l).2 ++ [(laneAt l).2])) (laneAt l).1 (laneAt l).2 true))) ∧
    (∀ l r, (laneTbl d l).2.head? = some (laneAt l).2 →
      let e := scanBusy (setLaneTbl d l (laneTbl d l).1 ((laneTbl d l).2.drop 1)) (laneAt l).1 (laneAt l).2 false
      exec (.scanDone l r) s = .next (s.withDev (match l with
        | .skein _ _ => scanResult e (laneAt l).1 (laneAt l).2 12 6400 20 400 r
        | .fabric _ _ => scanResult e (laneAt l).1 (laneAt l).2 4 3556 15 300 r))) ∧
    (∀ l loop v, exec (.ctleDfeUpdate l loop v) s = .next (s.withDev (eqUpdate d l loop v)))

/-- The rands of the wales and the release of system lines (R171 to R273). -/
def Obligations.WaleCommandsComplete : Prop :=
  ∀ s : State, s.dev.life = .up →
    let d := s.dev; let m := s.mem; let b := s.boot
    (∀ (w : Fin 16) y n l ls, d.stopped = false →
      let x := takeCtx d w (Bool.toNat y)
      portOfCtx d.force w x = some n → (skp d n).ready = l :: ls →
      let e := settleSlots (setSkp d n { (skp d n) with ready := ls }) m n
      stopCause e w = none →
      exec (.waleTakeLine w y) s = .next (s.withDev (finishCtx (enterLine e m w x n l) w x))) ∧
    (∀ (w : Fin 16) y i n, d.stopped = false →
      let x := Bool.toNat y
      let l := (wst d w x).lines.getD i default
      let f := forceOf d l.stamp.ver
      nextAligned d w x = some i → portOfCtx f w x = some n →
      let e := if l.gap then emitGap d w x n l else emitLine d m w x n i l
      let z := { (wst e w x) with lines := (wst e w x).lines.set i { l with out := true } }
      exec (.alignedLine w y) s = .next (s.withDev
        (finishCtx (setWst e w x (trimLines f w x (vf f (ra (pgSkein n) 0x108) 16 0) z)) w x))) ∧
    (∀ (w : Fin 16) x a p, (wst d w (Bool.toNat x)).statDone = a :: p →
      exec (.statReady w x) s = .next (s.put ((statReady d m w (Bool.toNat x)).1, (statReady d m w (Bool.toNat x)).2, b))) ∧
    (∀ (w : Fin 16) x z, d.stopped = false → nextContrib d w (Bool.toNat x) = some z →
      exec (.contribution w x) s = .next (s.withDev (formContrib d w (Bool.toNat x)))) ∧
    (∀ (w : Fin 16) x z, d.stopped = false → (wst d w (Bool.toNat x)).stag.getLast? = some z →
      let f := forceOf d z.stamp.ver
      let hold := vf f (cx (pgGeom w) (Bool.toNat x) 0x118) 19 0
      vb f (cx (pgGeom w) (Bool.toNat x) 0x100) 21 = true → hold ≤ z.stamp.camLine →
      (∀ l, (wst d w (Bool.toNat x)).window.getLast? = some l → l.stamp.camLine < z.stamp.camLine - hold) →
      exec (.staggerReadback w x) s = .next (s.withDev (readBack d m w (Bool.toNat x)))) ∧
    (∀ (ss : Fin 8) e, d.stopped = false → nextRelease d ss = some e → releaseReady d ss e = true →
      exec (.systemLineRelease ss) s = .next (s.withDev (releaseLine d ss e.1 e.2))) ∧
    (∀ (ss : Fin 8) e, d.stopped = false → firstTimeout d ss = some e →
      exec (.stitchTimeout ss) s = .next (s.withDev (releaseUpTo ss e.1 (d.refLines.length + 1) (elapse d m b e.2)))) ∧
    (∀ (w : Fin 16) x l ls, d.stopped = false → (sgs d w (Bool.toNat x)).pend = l :: ls → formReady d w (Bool.toNat x) l ls = true →
      exec (.runFormation w x) s = .next (s.withDev (formRuns d w (Bool.toNat x)))) ∧
    (∀ (w : Fin 16) x n, d.stopped = false → lastThresholded d w (Bool.toNat x) = some n → n % 256 = 255 →
      (sgs d w (Bool.toNat x)).block = some (n / 256) →
      exec (.thresholdUpdate w x) s = .next (s.withDev (thresholdUpdate d w (Bool.toNat x))))

/-- The coil tracker and its seams (R274 to R323). -/
def Obligations.TrackerCommandsComplete : Prop :=
  ∀ s : State, s.dev.life = .up →
    let d := s.dev; let m := s.mem
    (∀ (ss : Fin 8) z, d.stopped = false → nextTracked d ss = some z →
      exec (.trackerLine ss) s = .next (s.withDev (trackerLine d m ss))) ∧
    (∀ h u ss, needsCoil d h = some ss →
      exec (.unpark h u) s = .next (s.withDev (unparkNeeded d h u))) ∧
    (∀ (src : BitVec 6) ws right, seamSide d src.toNat ws = some right →
      exec (.seamLine src ws) s = .next (s.withDev (fragArrive m d src.toNat ws)) ∧
      exec (.seamFlush src ws) s = .next (s.withDev (breakSide m d right))) ∧
    (∀ (src : BitVec 6) ws, seamSide d src.toNat ws = some true →
      (∀ p q, resolve d (dfld (dwAt ws 2) 41 21) = some p → resolve d (dfld (dwAt ws 2) 20 0) = some q → p ≠ q →
        exec (.seamJoin src ws) s = .next (s.withDev (joinArrive d src.toNat ws))) ∧
      (∀ h, resolve d (dfld (dwAt ws 2) 20 0) = some h →
        exec (.shareClose src ws) s = .next (s.withDev (sumArrive m d src.toNat ws false)) ∧
        exec (.shareCut src ws) s = .next (s.withDev (sumArrive m d src.toNat ws true)))) ∧
    (∀ right, overdue d right = true →
      exec (.seamBroken right) s = .next (s.withDev (breakSide m d right))) ∧
    (exec (.seamRearm false false) s = .next s ∧ exec (.seamRearm true false) s = .next (s.withDev (rearm d false)) ∧
      exec (.seamRearm false true) s = .next (s.withDev (rearm d true)) ∧
      exec (.seamRearm true true) s = .next (s.withDev (rearm (rearm d false) true))) ∧
    (∀ (ss : Fin 8) n, (trkStn d ss).last = some n →
      let old := fun (_ : Nat) (e : FrontEnt) => decide (e.handle ≠ noHandle ∨ e.refused) && decide (entAge n e > 2 ^ 30)
      exec (.frontierScrub ss) s = .next (s.withDev (dropEntries d (trkStn d ss) old)))

/-- Border, its destinations and Ethernet ports (R324 to R367). -/
def Obligations.BorderCommandsComplete : Prop :=
  ∀ s : State, s.dev.life = .up →
    let d := s.dev; let m := s.mem; let b := s.boot
    (∀ r rs, rb d (ra pgBorder 0x100) 31 = true → d.border.stopped = false → joinWaits d = false →
      d.bin.notes = r :: rs →
      let q := numberRec { d with bin := { d.bin with notes := rs } } m r {}
      exec .recordIntake s = .next (s.put (q.1, q.2, b))) ∧
    (∀ (dd : Fin 4) r, destOn d dd = true → destRoom d dd = true → pairMuted d = false → (dest d dd).miss = [] →
      let at' := if dd.val = 3 then Nat.max (dest d dd).pos (dest d dd).sent else (dest d dd).pos
      let z := scanStore d dd (d.border.store.drop (at' - d.border.base)) at'
      z.2.1 = some r → gated d r = false → unreadable d z.1 = false →
      exec (.recordDelivery dd) s = .next (s.put ((deliver d m dd).1, (deliver d m dd).2, b))) ∧
    (∀ t, refineDue d = some t →
      exec .refineTimeout s = .next (s.withDev (refineExpire (elapse d m b t)))) ∧
    (∀ j js, d.border.patches = j :: js →
      let mg := fld (reg d (ra pgBorder 0x160)) 26 18
      (cutExtent (j.first - mg) (j.last + mg) j.first j.last).2.1 < (tat d.stn j.station).next →
      exec .patchWrite s = .next (s.put ((patchWrite d m).1, (patchWrite d m).2, b))) ∧
    (∀ (p : Fin 2) t, mayStream d (1 + p) = true → datagramDue d (1 + p) = some t → (dest d (1 + p)).resend = none →
      exec (.datagramSend p) s = .next (s.withDev (sendQueued (elapse d m b t) (1 + p)))) ∧
    (∀ p : Fin 2, mayStream d (1 + p) = true → rf d (destA (1 + p) 0x2C) 15 0 ≠ 0 →
      let e := elapse d m b ((dest d (1 + p)).sentAt + usCycles (1000 * rf d (destA (1 + p) 0x2C) 15 0))
      exec (.heartbeatDatagram p) s = .next (s.withDev (sendDatagram e (1 + p) [fillRec e (1 + p)] false))) ∧
    (∀ (p : Fin 2) (x : List Byte), mayStream d (1 + p) = true → x.length = 16 → ofLeBytes (x.take 3) = 0x017B1F →
      let n := ofLeBytes ((x.drop 4).take 2)
      n ≠ 0 → n ≤ 1024 → (dest d (1 + p)).resend = none →
      exec (.udpResendRequest p true x) s = .next (s.withDev (sendResent (setDest d (1 + p)
        { (dest d (1 + p)) with resend := some (ofLeBytes ((x.drop 8).take 6), n) }) (1 + p)))) ∧
    (∀ v : Fin 4, (tget (fun _ => ((0, 0) : Nat × Nat)) d.hif.coal v).1 ≠ 0 →
      let t := (tget (fun _ => ((0, 0) : Nat × Nat)) d.hif.coal v).2 + usCycles (rf d (ringA (vectorRing v) 0x20) 15 0)
      exec (.coalTime v) s = .next (s.withDev (coalTimeout (elapse d m b t) v))) ∧
    (∀ p : Fin 2, exec (.ethernetLinkDown p) s = .next (s.withDev
      ({ d with ethUp := d.ethUp.filter (fun q => decide (q ≠ p.val)) }))) ∧
    (∀ p : Fin 2, d.ethUp.contains p.val = false → exec (.ethernetLinkUp p) s = .next (s.withDev
      ({ d with ethUp := isortIns (fun x y => decide (x ≤ y)) p.val d.ethUp })))

/-- The host interface's commands, its rings and its completions (R352 to R363, R88 to R91). -/
def Obligations.HostInterfaceCommandsComplete : Prop :=
  ∀ s : State, s.dev.life = .up →
    let d := s.dev; let m := s.mem; let b := s.boot
    (exec .hostInterfaceReset s = .next (s.withDev (hostReset d))) ∧
    (ringOn d 3 = true → ringUsed d 3 ≠ 0 → d.hif.cmds.length < 512 →
      let ws : List Dword := (List.range 8).map (fun i =>
        BitVec.ofNat 64 (ofLeBytes (mread zeroByte m.host (ringAddr d 3 (ringCons d 3) + 8 * i) 8)))
      let e := ringFull (wrapBy d (ringA 3 16) 31 0 1) 3
      let tag := dfld (dwAt ws 0) 24 16
      let z := { e with hif := { e.hif with cmds := e.hif.cmds ++ [{ tag := tag, words := ws, fetched := e.cycle }] } }
      cmdOf e tag = none →
      exec .commandFetch s = .next (s.withDev (if (dwAt ws 0).getLsbD 8 then fenceOpen z tag else takeTail z tag))) ∧
    (∀ (tag : Fin 512) c, cmdOf d tag = some c → c.go = false → (cmdsBefore d tag).all (fun k => k.fin.isSome) = true →
      exec (.fence tag) s = .next (s.withDev (takeTail d tag))) ∧
    (∀ (tag : Fin 512) c, startable d tag 0 = some c →
      exec (.nop tag) s = .next (s.withDev (finishCmd d tag {}))) ∧
    (∀ (tag : Fin 512) c, startable d tag 1 = some c → d.restart = false → bulkOffset c % 4 = 0 →
      let q := bulkReads b (bulkCount c) (bulkOffset c) d
      let bs := q.2.1.flatMap wordBytes
      exec (.regBulkRead tag true) s = .next (s.put
        (finishCmd q.1 tag (resultEnd c bs.length (if q.2.2 then stOk else stBadArg) 0), putResult m c bs, b))) ∧
    (∀ (tag : Fin 512) c, startable d tag 2 = some c → d.restart = false → bulkOffset c % 4 = 0 → 4 * bulkCount c ≤ c.room →
      let vs := (List.range (bulkCount c)).map (fun i => BitVec.ofNat 32 (ofLeBytes (mread zeroByte m.host (c.buf + 4 * i) 4)))
      let q := bulkWrites vs (bulkOffset c) (d, m, b)
      exec (.regBulkWrite tag true) s = .next (s.put
        (drainHeld (finishCmd q.1.1 tag { status := if q.2.2 then stOk else stBadArg, value := q.2.1 }, q.1.2)))) ∧
    (∀ (tag : Fin 512) c, startable d tag 0x10 = some c →
      exec (.patchFetch tag true) s = .next (s.put ((patchFetch d m tag true).1, (patchFetch d m tag true).2, b))) ∧
    (∀ (tag : Fin 512) c, startable d tag 0x11 = some c →
      exec (.recordFetch tag true) s = .next (s.put ((recordFetch d m tag true).1, (recordFetch d m tag true).2, b))) ∧
    (∀ (tag : Fin 512) c, startable d tag 0x20 = some c →
      (d.jobq ++ runningJobs d).any (fun j => decide (j.tag = tag.val)) = false → jobCheck d c.words = none →
      exec (.reprocess tag) s = .next (s.withDev (histStat { d with jobq := d.jobq ++ [jobOf c.words] }))) ∧
    (∀ tag ts c, d.hif.finished = tag :: ts → cmdOf d tag = some c → ringRoom d 4 = true →
      exec .completionWrite s = .next (s.put ((writeCompletion d m).1, (writeCompletion d m).2, b))) ∧
    (∀ (k : Fin 4) r, jobFinish d m k = some r →
      exec (.jobDone k) s = .next (s.put (finishCmd r.1 r.2.2.1.tag
        { status := r.2.2.2, len := 64 + 64 * r.2.2.1.recs, value := r.2.2.1.recs }, r.2.1, b)))

/-- History, reprocess jobs and the memory controllers (R371 to R441). -/
def Obligations.MemoryCommandsComplete : Prop :=
  ∀ s : State, s.dev.life = .up →
    let d := s.dev; let m := s.mem; let b := s.boot
    (∀ (nn : Fin 32) ch cs, (wst d (nn / 2) (nn % 2)).chunks = ch :: cs →
      exec (.chunkWrite nn true) s = .next (s.put ((chunkWrite d m nn true).1, (chunkWrite d m nn true).2, b))) ∧
    (∀ k j, (List.range 4).find? (fun i => (tat d.jobs i).isNone) = some k → pickJob d [] d.jobq = some j →
      throttleStep d = 0 → d.restart = false →
      exec .reprocessStart s = .next (s.withDev (startJob d))) ∧
    (∀ (k : Fin 4) j, tat d.jobs k = some j → j.ovr = false → throttleStep d = 0 → d.paused.contains (d.pos.sysLine / 256) = false →
      exec (.jobLine k) s = .next (s.put ((jobNext d m k).1, (jobNext d m k).2, b))) ∧
    (∀ p : BitVec 2, rb d (ra pgLpx 0x104) 31 = false → p.toNat ≠ lpxPoint d → pointOk d p.toNat = true →
      exec (.lpxPointChange p) s = .next (s.withDev
        (evt (poke (poke (payAll d) (ra pgLpx 0x104) 1 0 p.toNat) (ra pgLpx 0x104) 5 4 p.toNat) pgLpx 6))) ∧
    (∀ (cc : Fin 16) r, rb d (ra (pgLpxCh cc) 0x100) 27 = false → Bool.toNat r < lpxRanks d →
      inPayback (lpc d cc) (Bool.toNat r) = false → (lpc d cc).refusing.contains (Bool.toNat r) = false →
      exec (.refreshDue cc r false) s = .next (s.withDev
        (lpxStat (setLpc d cc (closeRank (setOwed (lpc d cc) (Bool.toNat r) 0) (Bool.toNat r))) cc))) ∧
    (∀ (cc : Fin 16) x y, exec (.refreshRatePoll cc x y) s = .next (s.withDev (ratePoll d cc x y))) ∧
    (∀ (cc : Fin 16) r k, tat (lpc d cc).windows (Bool.toNat r) = some k →
      exec (.paybackWindow cc r) s = .next (s.withDev (paybackWindow d cc (Bool.toNat r)))) ∧
    (∀ (cc : Fin 16) r (k : Fin 16), exec (.bankIdle cc r k) s = .next (s.withDev
      (setLpc d cc { (lpc d cc) with rows := tset (lpc d cc).rows (16 * Bool.toNat r + k) none }))) ∧
    (∀ (cc : Fin 16) rs, exec (.lpxTrain cc rs) s = .next (s.withDev (lpxTrain d cc rs))) ∧
    (∀ (cc : Fin 16) l t, exec (.oscTrack cc l t) s = .next (s.withDev (setLpc d cc { (lpc d cc) with
      delay := tset (lpc d cc).delay (Bool.toNat l) (tat (lpc d cc).delay (Bool.toNat l) + satI t (-1) 1) }))) ∧
    (∀ (cc : Fin 4) rs, exec (.qdrTrain cc rs) s = .next (s.withDev (qdrTrain d cc rs)))

/-- Limileri links, discovery and routing (R442 to R471). -/
def Obligations.FabricLinkCommandsComplete : Prop :=
  ∀ s : State, s.dev.life = .up →
    let d := s.dev; let m := s.mem; let b := s.boot
    (∀ (p : Fin 5) cfg, rb d (fabCfgA p) 31 = false → bitOf cfg 31 = true →
      let e := setReg d (fabCfgA p) (cfg &&& 0xFE000000)
      portHeld e p = false → exec (.fabLinkEnable p cfg) s = .next (s.withDev (startTraining e p))) ∧
    (∀ (p : Fin 5) good k x, rb d (fabStatA p) 30 = true → rb d (fabStatA p) 31 = false →
      linkLanes (good.toNat &&& x.good.toNat) (rb d (fabCfgA p) 30) ≠ [] →
      exec (.fabLinkUp p good k x) s = .next (s.withDev (linkUp d p good.toNat k x))) ∧
    (∀ p : Fin 5, rb d (fabStatA p) 30 = true → rb d (fabStatA p) 31 = false →
      exec (.bringupTimeout p) s = .next (s.withDev (linkRestart (elapse d m b ((fbp d p).trainAt + 2000000)) p))) ∧
    (∀ (p : Fin 5) slip, fabUp d p = true → exec (.fabLinkDown p slip) s = .next (s.withDev
      (fabDown (poke d (fabStatA p) 23 20 (rf d (fabStatA p) 23 20 ||| slip.toNat)) p))) ∧
    (∀ (p : Fin 5) t, (fbp d p).ackAt = some t →
      let e := elapse d m b (t + 80)
      (fbp e p).ackAt.isSome = true → exec (.ack p) s = .next (s.withDev (sendLink e p [0]))) ∧
    (∀ p : Fin 5, fabUp d p = true → (fbp d p).replay ≠ [] →
      exec (.replayTimeout p) s = .next (s.withDev (replayAll (elapse d m b ((fbp d p).oldestAt + 1600)) p))) ∧
    (∀ p : Fin 5, fabUp d p = true → (fbp d p).nakFor = some (fbp d p).rxSeq →
      exec (.nakRepeat p) s = .next (s.withDev (nakAgain (elapse d m b ((fbp d p).nakAt + 1600)) p))) ∧
    (fabOn d = true → exec .helloSend s = .next (s.withDev (sendHello d))) ∧
    (∀ (k : BitVec 6) (serial : Dword) z, d.node.seen.find? (fun n => decide (n.serial = serial.toNat)) = some z →
      (z.idValid = false ∨ z.id = k.toNat) →
      exec (.nodeTimeout k serial) s = .next (s.withDev (nodeGone (elapse d m b (z.lastAt + 120000000)) serial.toNat))) ∧
    (fabOn d = true → rb d (ra pgFab 0x100) 30 = true →
      exec .election s = .next (s.withDev (elect (elapse d m b (d.node.newAt + 4000000))))) ∧
    (d.node.leader = true →
      exec .assignRepeat s = .next (s.withDev (repeatAssign (elapse d m b (d.node.assignAt + 40000000))))) ∧
    (rb d (ra pgFab 0x100) 28 = false → exec .topoChange s = .next (s.withDev (computeTables d))) ∧
    (∀ p : Fin 5, fabUp d p = false → (fbp d p).held ≠ [] →
      exec (.heldFrameDrop p) s = .next (s.withDev (dropHeld (elapse d m b ((fbp d p).heldAt + 800000)) p)))

/-- What a node sends and takes over the fabric (R461, R472 to R488). -/
def Obligations.FabricNodeCommandsComplete : Prop :=
  ∀ s : State, s.dev.life = .up →
    let d := s.dev; let m := s.mem; let b := s.boot
    (isMaster d = true → remoteRef d = false →
      exec .refIdle s = .next (s.withDev (refIdle (elapse d m b (d.node.refSent + 40000))))) ∧
    (∀ (src : BitVec 6) ws n, remoteRef d = true → fromMaster d src.toNat = true → kindOf ws = 0 →
      let e := { d with node := { d.node with refHeard := d.cycle } }
      waitCycles e ((refTime ws : Int) + refDelay e) = some n →
      exec (.refLineArrival src ws) s = .next (s.withDev
        { e with node := { e.node with waits := e.node.waits ++ [{ words := ws, at' := e.cycle + n }] } })) ∧
    (∀ x, firstWait d.node.waits = some x →
      let e := elapse d m b x.at'
      e.pos.sysLine ≤ (dwAt x.words 1).toNat →
      exec .refLineEffect s = .next (s.withDev
        (refEffect { e with node := { e.node with waits := e.node.waits.erase x } } m b x.words))) ∧
    (remoteRef d = true →
      let e := elapse d m b (d.node.refHeard + refLoss d)
      remoteRef e = true → rb e (ra pgFab 0x104) 26 = false → exec .refLost s = .next (s.withDev
        (raiseOpen (evt (pokeBit e (ra pgFab 0x104) 26 true) pgFab 4) pgFab 0x50 2 6))) ∧
    (∀ r : Fin 2, relayOut d r = true →
      let e := elapse d m b (tat d.node.relays r).nextPub
      relayOut e r = true → exec (.relayPublish r) s = .next (s.withDev (relayPublish e r))) ∧
    (∀ (r : Fin 2) (src : BitVec 6) ws n, relayIn d r = true → rf d (relayCfgA r) 29 24 = src.toNat →
      let e := { d with node := { d.node with relays := tmod d.node.relays r (fun x => { x with lastAt := d.cycle }) } }
      waitCycles e (sampleTime e (dwAt ws 2) + refDelay e) = some n →
      exec (.relaySampleArrival r src ws) s = .next (s.withDev
        { e with node := { e.node with relays := tmod e.node.relays r (fun x =>
          { x with waits := x.waits ++ [{ words := ws, at' := e.cycle + n }] }) } })) ∧
    (∀ (r : Fin 2) x, firstWait (tat d.node.relays r).waits = some x →
      let e := elapse d m b x.at'
      let e := { e with node := { e.node with relays := tmod e.node.relays r (fun y => { y with waits := y.waits.erase x }) } }
      relayIn e r = true → exec (.relaySampleEffect r) s = .next (s.withDev
        (relayApply e m b r (toSigned 64 (dwAt x.words 1).toNat)))) ∧
    (∀ r : Fin 2, relayIn d r = true →
      exec (.relayRefLoss r) s = .next (s.withDev
        (setStale (elapse d m b ((tat d.node.relays r).lastAt + refLoss d)) (6 + r)))) ∧
    (rb d (ra pgFab 0x100) 14 = true →
      let e := { d with node := { d.node with syncSeq := (d.node.syncSeq + 1) % 65536 } }
      exec .syncSend s = .next (s.withDev (originate e 4 none (syncPayload d)))) ∧
    (∀ p : Fin 5, fabUp d p = true →
      let e := setFbp d p { (fbp d p) with pdAt := some (timeStamp d) }
      exec (.pdelayReq p) s = .next (s.withDev (sendDelay e p [timeW1 e p 1 0, 0, 0, 0]))) ∧
    (∀ (src : BitVec 6) ws,
      let p : EpochPrep := { id := dfld (dwAt ws 0) 31 0, line := (dwAt ws 1).toNat, flags := dfld (dwAt ws 0) 57 55 }
      exec (.prepare src ws) s = .next (s.withDev (originate { d with node := { d.node with prep := some p } } 2 (some src.toNat)
        [dpack [(60, 4, 3), (59, 1, (epochVote d m p).toNat), (0, 32, p.id)]]))) ∧
    (∀ (src : BitVec 6) ws p, d.node.own = some p → dfld (dwAt ws 0) 31 0 = p.id →
      let vs := d.node.votes.filter (fun v => decide (v.1 ≠ src.toNat))
      exec (.vote src ws) s = .next (s.withDev
        { d with node := { d.node with votes := vs ++ [(src.toNat, dfld (dwAt ws 0) 59 59 == 1)] } })) ∧
    (∀ (src : BitVec 6) ws, (coll d src.toNat).last = none → exec (.record src ws) s = .next (s.withDev (recordArrive d src.toNat ws))) ∧
    (∀ (src : BitVec 6) ws, src.toNat = rf d (destA 3 0) 5 0 →
      exec (.recordAck src ws) s = .next (s.withDev (destAcked d (dfld (dwAt ws 0) 47 0)))) ∧
    (∀ (k : BitVec 6) t q, ackDue (coll d k.toNat) = some t →
      let e := elapse d m b t
      let c := coll e k.toNat
      c.last = some q → c.unacked ≠ 0 → exec (.recordAckSend k) s = .next (s.withDev
        (originate (setColl e k.toNat { c with unacked := 0, ackedAt := some e.cycle }) 5 (some k.toNat)
          [dpack [(60, 4, 1), (0, 48, q)]]))) ∧
    (dest3Waits d = true →
      exec .dest03Resend s = .next (s.withDev (setDest d 3 { (dest d 3) with sent := (dest d 3).pos, sentAt := d.cycle })))

/-- Frames that arrive on a port (R451 to R457, R463 to R465, R479). -/
def Obligations.FrameCommandsComplete : Prop :=
  ∀ s : State, s.dev.life = .up →
    let d := s.dev; let m := s.mem; let b := s.boot
    ∀ (p : Fin 5) (f : Frame), fabUp d p = true →
      let whole : Wire := { crcOk := true, blockError := false }
      (∀ w, (linkAccept d p f w).2 = true →
        exec (.frameReceive p f w) s = .next (s.put (handleFrame (linkAccept d p f w).1 m b p f (wireNow d)))) ∧
      ((linkAccept d p f whole).2 = true →
        let took := fun t => Host.Outcome.next (φ := Fault) (ρ := Refusal) (s.put (handleFrame (linkAccept d p f whole).1 m b p f t))
        (f.cls = 0 → kindOf f.payload = 1 → exec (.nak p f) s = took (wireNow d)) ∧
        (f.cls = 0 → kindOf f.payload = 2 → exec (.credit p f) s = took (wireNow d)) ∧
        (f.cls = 0 → kindOf f.payload = 3 → exec (.hello p f) s = took (wireNow d)) ∧
        (f.cls = 0 → kindOf f.payload = 4 → exec (.assign p f) s = took (wireNow d)) ∧
        (∀ t, f.cls = 4 → kindOf f.payload = 0 → exec (.sync p f t) s = took t) ∧
        (∀ t, f.cls = 4 → kindOf f.payload = 2 → exec (.pdelayResp p f t) s = took t))

/-- The time base and PTP (R493 to R513). -/
def Obligations.TimeCommandsComplete : Prop :=
  ∀ s : State, s.dev.life = .up →
    let d := s.dev; let m := s.mem; let b := s.boot
    (∀ hi, exec (.timeAdj hi) s = .next (s.withDev (timeLimit
      { d with time := { d.time with adj := toSigned 48 ((hi.toNat % 65536) * 2 ^ 32 + d.time.adjLo) * 65536 } }))) ∧
    (let room := (timeRoom d d.time.adj).toNat;
      room ≠ 0 → exec .adjDone s = .next (s.withDev (elapse d m b (d.cycle + (d.time.adj.natAbs + room - 1) / room)))) ∧
    (∀ f, stepAllowed d f = true →
      let r := fun o => (reg d (timeA o)).toNat
      let t := timeOf (r 0x130 * 2 ^ 32 + r 0x12C) (r 0x128 % 2 ^ 30) (r 0x134 % 65536)
      exec (.setGo f) s = .next (s.withDev (stepTo d t (roundShr ((t : Int) - d.time.now) 32)))) ∧
    (∀ f, stepAllowed d f = true →
      let ns := toSigned 64 (reg64 d (timeA 0x13C))
      exec (.stepGo f) s = .next (s.withDev (stepTo d (((d.time.now : Int) + ns * 2 ^ 32) % timeWrap).toNat ns))) ∧
    (∀ sec ns frac off, timeSource d ≠ 0 → rf d (timeA 0x100) 29 0 ≠ 0 → rf d (timeA 0x100) 29 0 < Int.natAbs off →
      stepAllowed d false = true →
      let z := if timeSource d = 1 then rf d (timeA 0x144) 15 0 * 2 ^ 48 + sec % 2 ^ 48 else sec % 2 ^ 64
      let t := timeOf z (ns % 1000000000) (frac % 65536)
      exec (.servoStep sec ns frac off) s = .next (s.withDev (stepTo d t (roundShr ((t : Int) - d.time.now) 32)))) ∧
    (∀ x, ptpListens d x.port = true → ptpDomain d x.domain = true →
      (bestMaster d).map (fun z => z.ident) = some x.identity →
      exec (.ptpSync x) s = .next (s.withDev (ptpUseSync d x))) ∧
    (∀ x, ptpDomain d x.domain = true → x.own = false → ptpRole d 2 = true ∨ ptpListens d x.port = true →
      exec (.announce x) s = .next (s.withDev (ptpAnnounce d x))) ∧
    (let e := elapse d m b (srcLostAt d);
      timeSource e ≠ 0 → rb e (timeA 0x104) 26 = false →
      exec .srcLost s = .next (s.withDev (evt (pokeBit e (timeA 0x104) 26 true) pgTime 2))) ∧
    (∀ f : BridgeFrame, rb d (ptpA 0x100) 27 = true → f.toPartAlone = false →
      let q := 1 - f.port.val
      let res := f.residence + latIngress d f.port + latEgress d q
      d.ethUp.contains q = true → res ≤ 10000 * 65536 →
      exec (.tcForward f) s = .next (s.withDev (emit (count d (ptpA (0x124 + 0x10 * q)))
        (.bridge q (if f.kind = .event then f.correction + res else f.correction))))) ∧
    (ptpRole d 2 = true → exec .ptpSyncInterval s = .next (s.withDev (ptpSyncOut d)) ∧
      exec .ptpAnnounceInterval s = .next (s.withDev (ptpAnnounceOut d))) ∧
    (let p := Bool.toNat (rb d (ptpA 0x100) 28);
      ptpRole d 1 = true → d.ethUp.contains p = true → (bestMaster d).isSome = true →
      let e := { d with ptp := { d.ptp with reqAt := some ((ptpNow d + latEgress d p) % ptpWrap) } }
      exec .delayReqInterval s = .next (s.withDev (ptpSend e p 1 none 0 0))) ∧
    (∀ (p : Fin 2) dom ident corr, ptpRole d 2 = true → ptpDomain d dom = true → d.ethUp.contains p.val = true →
      exec (.delayReq p dom ident corr) s = .next (s.withDev
        (ptpSend d p 9 (some ((ptpNow d - latIngress d p) % ptpWrap).toNat) corr ident))) ∧
    (∀ (p : Fin 2) dom w corr t1 t2 t3, ptpListens d p = true → ptpDomain d dom = true → d.ptp.reqAt = some t3 →
      d.ptp.sync = some (t1, t2) →
      let delay := shr (ptpDiff t2 t1 + ptpDiff (wireTime w - corr) t3) 1
      exec (.delayResp p dom w corr) s = .next (s.withDev { d with ptp := { d.ptp with reqAt := none, delay := delay } }))

/-- The Pairing's frames and timers (R514 to R543). -/
def Obligations.PairingCommandsComplete : Prop :=
  ∀ s : State, s.dev.life = .up →
    let d := s.dev; let m := s.mem; let b := s.boot
    (∀ t, d.pair.claimAt = some t →
      let e := elapse d m b t
      let z := fun x => setPair e { e.pair with actIn := x }
      exec (.claimDelay true) s = .next (s.withDev (startJoin (z true))) ∧
      exec (.claimDelay false) s = .next (s.withDev
        (setPair (becomeActive (z false)) { (becomeActive (z false)).pair with claimed := some (becomeActive (z false)).cycle }))) ∧
    (∀ t, d.pair.claimed = some t →
      exec (.claimConfirm false) s = .next (s.withDev
        (setPair (elapse d m b (t + 400)) { (elapse d m b (t + 400)).pair with actIn := false, claimed := none })) ∧
      (b.side = true → exec (.claimConfirm true) s = .next (s.withDev (startJoin (setPair d { d.pair with actIn := true })))) ∧
      (b.side = false → exec (.claimConfirm true) s = .next (s.withDev
        (setPair d { d.pair with actIn := true, claimed := some d.cycle })))) ∧
    (∀ x, let e := setPair d { d.pair with okIn := true, actIn := x }
      exec (.pairOkInRise x) s = .next (s.withDev (if pairEn d && decide (pairState d = 1) then pairTo e 5 else e))) ∧
    (∀ nn seen, standby d = true →
      exec (.triggerBusPulse nn seen) s = .next (s.withDev (pairBusPulse d m b nn seen))) ∧
    (pairEn d = true → rb d (pairA 0x100) 27 = true → checkDiff d ≠ d.pair.encDiff →
      exec .encMismatch s = .next (s.withDev (unsync (raiseOpen
        (evt (count (setPair d { d.pair with encDiff := checkDiff d }) (pairA 0x148)) pgPair 6) pgPair 0x51 2 6)))) ∧
    (∀ k, lastBlock d = some k → pairEn d = true → d.pair.digests.any (fun g => decide (k ≤ g.block)) = false →
      exec .digestSend s = .next (s.withDev (digestSend d))) ∧
    (∀ ws, pairEn d = true → exec (.digest ws) s = .next (s.withDev (matchDigests (setPair (pairHeard d)
      { (pairHeard d).pair with
          twinDigests := ((pairHeard d).pair.twinDigests ++ [digestOf ws]).drop ((pairHeard d).pair.twinDigests.length - 7) })))) ∧
    (∀ g, d.pair.digests.find? (fun g => decide (256 * (g.block + 3) ≤ d.pos.sysLine + 1)) = some g →
      let e := setPair d { d.pair with digests := d.pair.digests.filter (fun k => decide (k.block > g.block)) }
      exec .digestTimeout s = .next (s.withDev (if compares e then disagree e else e))) ∧
    (pairEn d = true → d.pair.okIn = true → pairState d ≠ 0 →
      exec .pairLinkLost s = .next (s.withDev
        (unsync (evt (elapse d m b (d.pair.heardAt + usCycles (rf d (pairA 0x114) 31 24))) pgPair 7)))) ∧
    (∀ ws, pairEn d = true → exec (.heartbeat ws) s = .next (s.withDev (takeHeartbeat d ws))) ∧
    (pairEn d = true →
      exec .heartbeatSend s = .next (s.withDev (sendPair d [dpack [(57, 3, pairState d), (0, 48, d.border.seq)]]))) ∧
    (pairEn d = true → pairState d = 4 →
      exec .gateTimeout s = .next (s.withDev (gateTimeout d m b))) ∧
    (∀ ws, standby d = true → exec (.report ws) s = .next (s.withDev (takeReport d ws))) ∧
    (pairActive d = true → exec .reportSend s = .next (s.withDev
      (sendPair d (dpack [(60, 4, 1), (0, 48, d.border.seq)] :: (List.range 4).map (fun k => dpack [(0, 48, destNext d k)]))))) ∧
    (pairEn d = true → pairState d = 3 ∨ pairState d = 6 →
      exec .takeover s = .next (s.withDev (takeOver (setPair d { d.pair with okIn := false, actIn := false }) m))) ∧
    (pairEn d = true → pairState d = 4 → d.pos.sysLine + 64 ≤ reg64 d (pairA 0x10C) →
      let id := (d.pair.swapId + 1) % 2 ^ 32
      exec (.swap 0x80000000) s = .next (s.withDev
        (sendPair (setPair d { d.pair with swap := some (reg64 d (pairA 0x10C), 1, id), swapId := id })
          [dpack [(60, 4, 8), (32, 3, 1), (0, 32, id)], dpack [(0, 64, reg64 d (pairA 0x10C))]]))) ∧
    (∀ ws, pairEn d = true → pairState d = 3 → exec (.swapFrame ws) s = .next (s.withDev (setPair (pairHeard d)
      { (pairHeard d).pair with swap := some ((dwAt ws 1).toNat, dfld (dwAt ws 0) 34 32, dfld (dwAt ws 0) 31 0),
                                swapId := dfld (dwAt ws 0) 31 0 }))) ∧
    (∀ line cause k, d.pair.swap = some (line, cause, k) → d.pos.sysLine % 256 = 0 → line ≤ d.pos.sysLine →
      pairState d = 3 ∨ pairState d = 4 →
      exec .swapEffect s = .next (s.withDev (swapEffect d))) ∧
    (∀ cause : Fin 6, pairEn d = true → pairState d = 2 → cause ≠ 0 → cause ≠ 1 → cause ≠ 3 →
      exec (.joinFail cause) s = .next (s.withDev
        (startJoin (evt (count (poke d (pairA 0x12C) 28 24 cause) (pairA 0x154)) pgPair 9)))) ∧
    (standby d = true → exec .rejoin s = .next (s.withDev (startJoin d))) ∧
    (∀ ws t, pairEn d = true → timeKind (pairHeard d) 4 ws = 1 →
      exec (.pairTime ws t) s = .next (s.withDev (pdelayAnswer (pairHeard d) 4 ws t))) ∧
    (pairActive d = true →
      let q := (d.node.syncSeq + 1) % 65536
      let e := { d with node := { d.node with syncSeq := q } }
      exec .pairTimeSend s = .next (s.withDev (sendDelay e 4 (timeW1 e 4 0 q :: (timeWords (timeStamp e) ++ [0]))))) ∧
    (∀ ws, standby d = true → exec (.mirror ws) s = .next (s.put ((takeMirror d m b ws).1, (takeMirror d m b ws).2, b))) ∧
    (pairEn d = true → exec .mirrorApply s = .next (s.put ((mirrorNow d m b).1, (mirrorNow d m b).2, b))) ∧
    (∀ ws, pairActive d = true → exec (.mirrorAck ws) s = .next (s.withDev (takeMirrorAck d ws))) ∧
    (∀ ws, standby d = true → exec (.forward ws) s = .next (s.withDev (takeForward d m b ws))) ∧
    (∀ ws, pairEn d = true → dfld (dwAt ws 0) 59 56 = 1 → pairState (pairHeard d) = 2 →
      exec (.join ws) s = .next (s.withDev
        (setPair (pairHeard d) { (pairHeard d).pair with joinFrom := some (dwAt ws 1).toNat }))) ∧
    (∀ ws, standby d = true → dfld (dwAt ws 0) 31 16 = 0 → dfld (dwAt ws 0) 15 0 ≤ 1040 →
      exec (.updateFragment ws) s = .next (s.put (takeFragment d m b ws)))

/-- Wicker, the interrupt controller and snapshots (R544 to R570, R615, R616). -/
def Obligations.WickerCommandsComplete : Prop :=
  ∀ s : State, s.dev.life = .up →
    let d := s.dev; let m := s.mem; let b := s.boot
    (∀ (pp : Fin 96) (v : Word), codeKnown (v.toNat % 65536) = true →
      exec (.pselWrite pp v) s = .next (s.withDev (poke d (wkrA (0x180 + 4 * pp)) 15 0 v.toNat))) ∧
    (∀ off (v : Word), isRouting off = true → off % 4 = 0 → isCellCfg off = false →
      let keep : Word := if 0xB00 ≤ off then 0x7F7F7F else 0xFFFFFFFF
      wkrLoops (setReg d (wkrA off) (v &&& keep)) = false →
      exec (.wkrRoutingWrite off v) s = .next (s.withDev (setReg d (wkrA off) (v &&& keep)))) ∧
    (∀ off (v : Word), isCellCfg off = true → fld v 19 17 ≤ 4 →
      let e := setReg d (wkrA off) (v &&& 0x4FFFFF)
      wkrLoops e = false → exec (.wkrRoutingWrite off v) s = .next (s.withDev
        { e with wkr := { e.wkr with q := tset e.wkr.q ((off - 0xB00) / 16) (bitOf v 22) } })) ∧
    (∀ (g : Fin 16) on off, rb d (wkrA (0xA80 + 8 * g)) 31 = true → (on || off) = true →
      within10 d (tat d.wkr.groupAt g) = false → rb d (wkrA 0x104) g = off →
      exec (.groupEdge g on off) s = .next (s.withDev (pokeBit
        { d with wkr := { d.wkr with groupAt := tset d.wkr.groupAt g (some d.cycle) } } (wkrA 0x104) g !off))) ∧
    (∀ (nn : Fin 32) (balls : BitVec 8),
      let e := setBalls d balls.toNat
      let i := fun k => row e (cellSel e nn k)
      bitOf (cellCfg e nn) 16 = true → groupOn e nn = true → within10 e (tat e.wkr.cellAt nn) = false →
      exec (.cellEdge nn balls) s = .next (s.withDev { e with wkr := { e.wkr with
        q := tset e.wkr.q nn (bitOf (cellCfg e nn) ((tat e.wkr.q nn).toNat * 8 + (i 2).toNat * 4 + (i 1).toNat * 2 + 1))
        cellAt := tset e.wkr.cellAt nn (some e.cycle) } })) ∧
    (∀ slot : Fin 96,
      let r := slotEdge d slot 0x021 (snapBusy d)
      let e := elapse r.1 m b (d.cycle + 2)
      r.2 = true → snapBusy e = false → exec (.snapshot slot) s = .next (s.withDev (snapTake e b 2))) ∧
    (∀ (src : Fin 512) level, src.val < 192 →
      exec (.interruptArrival src level) s = .next (s.withDev (intcDeliver (senseSrc d src (srcLevel d src level))))) ∧
    (∀ (tt : Fin 5) (src : Fin 512), srcClaimed d src = true → claimant d src = tt →
      let again := decide (srcState d src = 3) ||
        (decide (srcState d src = 2) && decide (fld (srcCfg d src) 30 29 = 0) && rb d (srcA src) 28)
      let e := setSrc d src again.toNat
      let e := if tt.val < 4 then setStack e tt ((tat e.intc.stack tt).filter (fun x => decide (x.1 ≠ src.val)))
        else pokeBit e (ra pgIntcSt (0x900 + 4 * (src / 32))) (src % 32) false
      exec (.complete tt src) s = .next (s.withDev
        (intcDeliver { e with intc := { e.intc with under := tset e.intc.under src none } }))) ∧
    (∀ bits, exec (.swiSet bits) s = .next (s.withDev (swiWrite d (reg d (intcA 0x1A8) ||| bits)))) ∧
    (∀ bits, exec (.swiClear bits) s = .next (s.withDev (swiWrite d (reg d (intcA 0x1A8) &&& ~~~ bits)))) ∧
    (snapBusy d = false → exec .snapGo s = .next (s.withDev (snapTake d b 1))) ∧
    (snapBusy d = true → d.health.snapWaits = false →
      (evt (pokeBit d (ra pgSnap 0x104) 31 false) pgSnap 0).health.snapWaits = false →
      exec .snapshotComplete s = .next (s.withDev (evt (pokeBit d (ra pgSnap 0x104) 31 false) pgSnap 0)))

/-- Health: faults, temperature, voltage, calibration and errors (R65, R72 to R76, R582 to R614, R620). -/
def Obligations.HealthCommandsComplete : Prop :=
  ∀ s : State, s.dev.life = .up →
    let d := s.dev; let m := s.mem; let b := s.boot
    (let e := pokeBit (pokeBit d (ra pgClk 0x100) 31 false) (ra pgClk 0x100) 30 true;
      exec .rootLockLost s = .next (s.withDev
        { takeErrors (stopPart (raiseOpen e pgClk 0x01 3 5) m) b with life := .held 1 })) ∧
    (∀ (ctx : Bool) (w : Fin 16) (rand : Fin 4) (k : Fin 6) colour,
      let x := ctx.toNat
      let loc := 4096 * x + 256 * w.val + 16 * rand.val + k.val
      let e := setWst d w x { (wst d w x) with faults := (wst d w x).faults ++ [parityStage rand colour] }
      exec (.weaverParity ctx w rand k colour) s = .next (s.withDev
        (faultEvent (raise e (randPage w rand) 0x11 2 3 loc) 2 loc 1))) ∧
    (∀ (k : Fin 4) (detail : Word), d.iso.contains k.val = false →
      let e := { d with iso := d.iso ++ [k.val], rods := d.rods.filter (fun r => decide (r.wale / 4 ≠ k)) }
      exec (.stakeIsolated k detail) s = .next (s.withDev (raise e pgFlt 0x10 2 4 detail.toNat))) ∧
    (∀ detail : Word, exec (.slathFault detail) s = .next (s.withDev (stopPart (raise d pgFlt 0x02 3 4 detail.toNat) m))) ∧
    (∀ readings powers,
      let e := sensorRound d readings powers
      exec (.sensorRead readings powers) s = .next (s.withDev
        (riskSwap d (if hottest e ≥ 920 then shutdown e m 0x03 else e)))) ∧
    (∀ t, throttleAt d = some t → exec .throttle s = .next (s.withDev (riskSwap d (throttleEval (elapse d m b t))))) ∧
    (∀ (k : Fin 6) avg,
      let e := { d with therm := { d.therm with power := tset d.therm.power k avg } }
      let e := if k.val = 5 then poke e (thermA 0x148) 15 0 avg else e
      exec (.powerLimit k avg) s = .next (s.withDev (if powerLimit e k < avg then evt e pgTherm 7 else clearAtRisk e))) ∧
    (shuttingDown d = false →
      let e := { d with upd := { d.upd with sess := none } }
      exec .shutdownReq s = .next (s.withDev
        (stopPart (raiseOpen (evt (pokeBit e (ra pgTherm 0x108) 27 true) pgTherm 6) pgTherm 0x04 3 5) m))) ∧
    (shuttingDown d = true → exec .thermTrip s = .next (s.withDev
      { poke (pokeBit (takeErrors d b) thermStatA 26 true) (ra pgBoot 0x104) 2 0 4 with life := .held 2 })) ∧
    (∀ (k : Fin 5) slack mv, exec (.avsUpdate k slack mv) s = .next (s.withDev (avsUpdate d k slack.toNat mv.toNat))) ∧
    (∀ (k : Fin 5) (count : BitVec 16), b.extended = true →
      exec (.ageingMeasure k count) s = .next (s.withDev (ageMeasure d k count.toNat))) ∧
    (∀ (k : Fin 5) (count : BitVec 16), b.extended = false → (newest m .ageing).isSome = false →
      let e := ageMeasure (if (tat d.health.floor0 k).isNone then poke d (avsA k 0x24) 15 0 count.toNat else d) k count.toNat
      let full := flashOpen e && (List.range 5).all (fun j => (tat e.health.floor0 j).isSome)
      exec (.ageingMeasure k count) s = .next (s.put
        (e, if full then writeCopy m .ageing 0 (ageBody (ageWords e) []) else m, b))) ∧
    (rb d (ra pgCal 0x100) 31 = true →
      let far := fun (d : Dev) c t =>
        decide ((reading d (calSensor d c t) - tat d.health.calTemp (1000 * c + t)).natAbs > 8 * rf d (ra pgCal 0x100) 5 0)
      exec .calCheck s = .next (s.withDev (calStartAll ((List.range 5).foldl
        (fun d c => (calTargets c).foldl (fun d t => if far d c t then calQueue d c t else d) d) d)))) ∧
    (∀ classes : BitVec 5, exec (.calGo classes) s = .next (s.withDev (calStartAll ((bitIdx 5 classes.toNat).foldl
      (fun d c => (calTargets c).foldl (fun d t => calQueue d c t) d) d)))) ∧
    (∀ (z : CalTarget) (r : EyeResult), tat d.health.calRun (calKey z).1 = some (calKey z).2 →
      let e := { d with health := { d.health with calRun := tset d.health.calRun (calKey z).1 none } }
      let good := 16 ≤ r.width ∧ r.width ≤ 56 ∧ 40 ≤ r.height ∧ r.height ≤ 400
      let took := fun e => Host.Outcome.next (φ := Fault) (ρ := Refusal) (s.withDev (calStartAll (evt e pgCal 0)))
      (∀ n l, z = .cameraLane n l → exec (.calDone z r) s = took (calLane e (pgSkein n) l 12 6400 20 400 r)) ∧
      (∀ p l, z = .fabricLane p l → exec (.calDone z r) s = took (calLane e (pgFabPort p) l 6 3556 15 300 r)) ∧
      (∀ n, z = .delayLine n → exec (.calDone z r) s = took (calDelay e n r.width)) ∧
      ((∀ n l, z ≠ .cameraLane n l) → (∀ p l, z ≠ .fabricLane p l) → (∀ n, z ≠ .delayLine n) →
        exec (.calDone z r) s = took (if good then e else calFail e))) ∧
    (∀ mm : Fin 16, exec (.monBinSel mm) s = .next (s.withDev ((List.range 64).foldl
      (fun e k => setReg e (ra pgMon (0x400 + 4 * k)) (BitVec.ofNat 32 (tat e.health.bins (64 * mm + k))))
      (poke d (ra pgMon 0x300) 3 0 mm)))) ∧
    (∀ (cls : Fin 4) (loc : Word) inWale,
      let e := match cls with
        | 1 => count d (ra (pgQdrCh (loc.toNat / 64 % 4)) 0x104)
        | 3 => countBy d (ra (pgLpxCh (lpxMap d loc.toNat).ch) 0x11C) 15 0 1
        | _ => d
      exec (.correctedFault cls loc inWale) s = .next (s.withDev (faultEvent e cls loc.toNat (faultLevel cls inWale)))) ∧
    (∀ (k : Fin 5) (loc : Word), rf d (ra pgFlt (0x180 + 4 * k)) 15 0 ≠ 0 →
      exec (.rowRemap k loc) s = .next (s.withDev
        (poke d (ra pgFlt (0x180 + 4 * k)) 15 0 (rf d (ra pgFlt (0x180 + 4 * k)) 15 0 - 1)))) ∧
    (exec (.errorArrival none) s = .next (s.withDev
      ((isort errBefore d.errIn).foldl (fun d e => handleErr d b e) { d with errIn := [] }))) ∧
    (∀ seq : BitVec 16, curValid d = true → rf d (errcA (slotCur + 4)) 15 0 = seq.toNat → preValid d = false →
      exec (.errcDone seq) s = .next (s.withDev (setReg (clearSlot d slotCur) (errcA 0x108) 0)))

/-- Wake sources, resets and what a running part does about its images (R65, R575 to R577, R624, R642 to R646). -/
def Obligations.PowerAndBootCommandsComplete : Prop :=
  (∀ s : State, s.dev.life = .asleep →
    let d := s.dev; let m := s.mem; let b := s.boot
    (∀ slot : Fin 96, (slotEdge d slot 0x022 (targetBusy d 0x022)).2 = true →
      exec (.wake slot) s = .next (s.put (wakeWith b
        (wakeFire (slotEdge d slot 0x022 (targetBusy d 0x022)).1 m 0)))) ∧
    (exec .hostWake s = .next (s.put (wakeWith b (wakeFire d m 1)))) ∧
    (reg d (pwrA 0x110) ≠ 0 → exec .timerWake s = .next (s.put (wakeWith b (wakeFire d m 2)))) ∧
    (rf d (pwrA 0x114) 19 16 ≠ 0 → exec .motionWake s = .next (s.put (wakeWith b (wakeFire d m 3)))) ∧
    (exec .tripComparator s = .next (s.withDev
      { poke (pokeBit d thermStatA 26 true) (ra pgBoot 0x104) 2 0 4 with life := .held 2 }))) ∧
  (∀ s : State,
    let d := s.dev; let m := s.mem; let b := s.boot
    (∀ side testEn refOk twinOk twinAct,
      let e := { d with pair := { d.pair with okIn := twinOk, actIn := twinAct } }
      exec (.powerOnReset side testEn refOk twinOk twinAct) s = .next (s.put
        (resetPart e m { b with side := side, testEn := testEn, refOk := refOk, railsLost := [] } true 0))) ∧
    (∀ rail : Fin 12, b.railsLost.contains rail.val = false →
      let c := { b with resets := b.resets + 1, dogAt := none, railsLost := rail.val :: b.railsLost }
      exec (.supplyRailLoss rail) s = .next (s.put ({ resetDev d c true 0 with life := .held 3 }, resetMem m, c))) ∧
    (d.life = .up ∨ d.life = .asleep ∨ d.life = .recovery ∨ d.life = .held 2 →
      exec .warmReset s = .next (s.put (resetPart d m b false 1))) ∧
    (d.life = .held 2 → slathCool d = true →
      exec .tripReleaseCheck s = .next (s.put (resetPart d m b false (rf d (ra pgBoot 0x104) 2 0)))) ∧
    (d.life = .held 1 → exec .rootLockReturns s = .next (s.put (resetPart d m b false 3))) ∧
    (d.life = .held 4 → exec .refRootOk s = .next (s.put (upsett d m { b with refOk := true })))) ∧
  (∀ s : State, s.dev.life = .up →
    let d := s.dev; let m := s.mem; let b := s.boot
    (d.restart = false → b.dogAt = none →
      exec .watchdogExpiry s = .next (s.put (beginRestart d, m, { b with dogAt := some d.cycle }))) ∧
    (d.restart = false → exec .ageingAppend s = .next (s.put
      (d, ageAppend d m { b with ageRuns := b.ageRuns + 1 }, { b with ageRuns := b.ageRuns + 1 }))) ∧
    (∀ t, d.upd.settledAt = some t → d.restart = false → b.confirmed = true → b.fails = 0 →
      let e := elapse d m b (t + 24000000000)
      exec .goodStart s = .next (s.withDev { e with upd := { e.upd with settledAt := none } })) ∧
    (d.restart = true → exec .managementRestartDone s = .next (s.put ((endRestart d m b).1, (endRestart d m b).2, b))) ∧
    (mcDue d = true → d.paused.contains (d.pos.sysLine / 256) = false →
      let e := pokeBit (setReg d (ra pgBoot 0x110) (BitVec.ofNat 32 d.upd.mcNew)) (ra pgBoot 0x100) 16 false
      exec .microcodeChange s = .next (s.withDev (unsync (setStatus
        { e with paused := (d.pos.sysLine / 256) :: d.paused, upd := { d.upd with mcGo := 0 } } .mcDone)))))

/-- A session's operations, each by a message and by a write of UPD_SESSION or UPD_CTRL (R636 to R650). -/
def Obligations.UpdateCommandsComplete : Prop :=
  ∀ s : State, s.dev.life = .up → s.dev.restart = false → pairEn s.dev = false → flashRefusal s.dev = none →
    let d := s.dev; let m := s.mem; let b := s.boot
    (∀ r : UpdRequest, served d r.source.val = true → r.source ≠ 1 →
      (d.upd.sess = none → exec (.updOpen r) s = .next (s.put (openSess d m b r))) ∧
      (owns d r = true →
        (r.payload.length ≤ 1024 → r.payload.length % 16 = 0 → crc32c r.payload = r.crc.toNat →
          r.offset + r.payload.length ≤ slotSize →
          exec (.updWrite r) s = .next (s.put (ownAnswer (touchSess d) r opWrite r.token.toNat .ok,
            flashProgram m (slotBase b.staging + r.offset) r.payload, b))) ∧
        (stagedFault b (readImage m b.staging) = none →
          let e := endSess d
          let q := saveBoot e m b { b with staged := true }
          exec (.close r) s = .next (s.put (ownAnswer e r opClose r.token.toNat .ok, q.1, q.2))) ∧
        (exec (.abort r) s = .next (s.withDev (ownAnswer (endSess d) r opAbort r.token.toNat .ok)))) ∧
      (d.upd.sess = none ∨ owns d r = true →
        exec (.status r) s = .next (s.withDev (answer (touchSess d) r opStatus r.token.toNat (shownStatus d)))) ∧
      (∀ force, d.upd.sess = none → b.confirmed = true → b.staged = true →
        exec (.activate r force) s = .next (s.put (activateStaged d m b r force)))) ∧
    (d.upd.sess = none →
      (exec (.updOpen pcieReq) s = .next (s.put (drainHeld (openSess d m b pcieReq)))) ∧
      (∀ force, b.confirmed = true → b.staged = true →
        exec (.activate pcieReq force) s = .next (s.put (drainHeld (activateStaged d m b pcieReq force))))) ∧
    (owns d pcieReq = true →
      (exec .program s = .next (s.put (drainHeld ((programWindow d m b).1, (programWindow d m b).2, b)))) ∧
      (exec (.close pcieReq) s = .next (s.put (drainHeld (closeSess d m b pcieReq)))) ∧
      (exec (.abort pcieReq) s = .next (s.put (drainHeld (ownAnswer (endSess d) pcieReq opAbort 0 .ok, m, b))))) ∧
    (∀ z, d.upd.sess = some z →
      exec .sessionTimeout s = .next (s.withDev (setStatus (endSess (passTo d m b (z.lastAt + 4000000000))) .timeout))) ∧
    (mcPending d = true → d.upd.mcGo ≠ 2 →
      exec .mcGo s = .next (s.put (drainHeld
        ({ d with upd := { d.upd with mcGo := 1, mcBlock := d.pos.sysLine / 256 + 1 } }, m, b)))) ∧
    (exec .freezeRecipe s = .next (s.put (drainHeld (
      if Store.frozen.size < 64 + (captureRecipe d m).length then (setStatus d .recipeTooLarge, m, b)
      else (setStatus d .ok, writeCopy m .frozen 0 (captureRecipe d m), b))))) ∧
    (∀ c, windowCopy m = some c → d.img.schemaMin ≤ c.schema → c.schema ≤ d.img.schema →
      exec .settingsWrite s = .next (s.put (drainHeld ((settingsWrite d m b).1, (settingsWrite d m b).2, b))))

/-- The host's writes that have a row of their own, on a part outside a Pairing (R657 to R668 and the pages' own rules). -/
def Obligations.HostWriteCommandsComplete : Prop :=
  ∀ s : State, s.dev.life = .up → pairEn s.dev = false →
    let d := s.dev; let m := s.mem; let b := s.boot
    let done := fun (e : Dev) => Host.Outcome.next (φ := Fault) (ρ := Refusal) (s.put (drainHeld (e, m, b)))
    (exec .commitNow s = done (commitNow d m b)) ∧
    (∀ pg v, (pageInfo pg).isSome = true → isShadowPage pg = true → (armOf d pg).armed = false → bitOf v 29 = false →
      exec (.arm pg v) s = done (armPage (storeReg d (ra pg 0x028) (v ||| 0x40000000)) m b pg)) ∧
    (∀ pg, (pageInfo pg).isSome = true → isShadowPage pg = true → (armOf d pg).armed = true →
      exec (.disarm pg) s = done (disarm d pg)) ∧
    (∀ pg, (armOf d pg).armed = true → (armOf d pg).mode = 1 → (armOf d pg).pos ≤ d.pos.sysLine →
      exec (.recipeCommit pg) s = .next (s.withDev (settle m b (commitReached m [armOf d pg] d)))) ∧
    (∀ pg p, pageInfo pg = some p → ownEnables pg ≠ [] →
      let v := (reg d (ra pg 0x008) &&& 0x80000001) ||| 0x40000000
      let e := randPower (storeReg d (ra pg 0x008) v) pg (bitOf v 0)
      (ownEnables pg).any (fun x => rb e (ra pg x.1) x.2 ||
        (decide (shadowMask (ra pg x.1) ≠ 0) && bitOf (inForce e (ra pg x.1)) x.2)) = false →
      exec (.srst pg) s = done (softReset e m b pg p)) ∧
    (∀ pg en, (pageInfo pg).isSome = true → isRandPage pg = true →
      let v := (reg d (ra pg 0x008) &&& 0x80000000) ||| BitVec.ofNat 32 en.toNat
      exec (.randPowerGate pg en) s = done (pokeBit (storeReg d (ra pg 0x008) v) (ra pg 0x008) 0 en)) ∧
    (∀ x, waitsLpx d x = false → exec (.registerWrite x) s = .next (s.put (drainHeld (accessUp d m b x)))) ∧
    (∀ v : Word, (v.toNat + 2 ^ 32 - ringCons d 3) % 2 ^ 32 ≤ ringLen d 3 →
      exec (.doorbell v) s = done (ringFull (setReg d (ringA 3 12) v) 3)) ∧
    (∀ (r : Fin 5) (v : Word), r ≠ 3 → (ringProd d r + 2 ^ 32 - v.toNat) % 2 ^ 32 ≤ ringLen d r →
      exec (.ringConsWrite r v) s = done (ringFull (setReg d (ringA r 16) v) r)) ∧
    (exec .alignGo s = done (alignAll (storeReg d (ra (pgEnc 0) 0x180) (reg d (ra (pgEnc 0) 0x180) ||| 0x80000000)))) ∧
    (exec .trkFlush s = done (flushAll m (storeReg d (ra pgTrk 0x100) (reg d (ra pgTrk 0x100) ||| 0x40000000)))) ∧
    (∀ h, h < 2097152 → exec (.peek h) s = done (peekCoil d h)) ∧
    (∀ hi, exec (.borderVerdict hi) s = done (verdict (setReg d (ra pgBorder 0x118) hi) hi)) ∧
    (∀ enter, rb d (ra pgLpx 0x158) 8 = !enter →
      let e := poke d (ra pgLpx 0x158) 7 0 (rf d (ra pgLpx 0x158) 7 0)
      let z := selfRefresh (pokeBit e (ra pgLpx 0x158) 8 enter) enter
      srRefused e = false → exec (.srReq enter) s = .next (s.put (drainHeld
        (z, if rb e (ra (pgLpxCh 0) 0x100) 27 && !enter then loseSegments z m else m, b)))) ∧
    (rb d (ra pgFab 0x100) 28 = true → exec .fabRouteCommit s = done (switchTables d)) ∧
    (∀ v : Word,
      let e := storeReg d (ra pgFab 0x13C) (v ||| 0x80000000)
      let p : EpochPrep := { id := (reg e (ra pgFab 0x130)).toNat, line := reg64 e (ra pgFab 0x134),
                             flags := rf e (ra pgFab 0x13C) 2 0 }
      rb e epochStatA 31 = false → e.pos.sysLine + rf e (ra pgFab 0x12C) 15 0 ≤ p.line → p.id ≠ 0 →
      isMaster e = true → remoteRef e = false →
      let z := pokeBit e epochStatA 31 true
      let z := { z with node := { z.node with own := some p, prep := some p, votes := [(myId z, epochVote z m p)] } }
      exec (.epochGo v) s = done (originate z 2 none
        [dpack [(60, 4, 2), (55, 3, p.flags), (0, 32, p.id)], dpack [(0, 64, p.line)]])) ∧
    (pwrState d = 1 → exec .reqRun s = done (pwrShow d 0)) ∧
    (pwrState d = 0 → idleHeld d = false → exec .reqIdle s = done (pwrShow d 1)) ∧
    (sleepRefused d = none → wakeWanted (elapse d m b (d.cycle + 1)) = 0 →
      exec .reqDeepSleep s = done (enterSleep (elapse d m b (d.cycle + 1))))

/-! ## The block and its queue -/

/-- The command at the front of the queue is carried out on the rest. -/
def Obligations.StepTakesFront : Prop :=
  ∀ (i : Instr) (s : State), step { s with pending := i :: s.pending } = exec i s

/-- On an empty queue one edge of the control clock passes (DESIGN CHOICE, log 5, the model's own): the step answers a next state in
which only the part may have changed, and nothing waits. -/
def Obligations.IdleStepPassesOneEdge : Prop :=
  ∀ s : State, s.pending = [] → step s = .next (idleEdge s) ∧ (idleEdge s).pending = [] ∧ (idleEdge s).mem = s.mem ∧
    (idleEdge s).boot = s.boot ∧ (idleEdge s).dev = elapse s.dev s.mem s.boot (s.dev.cycle + 1)

/-- No command faults and none is refused, in whatever state: each answers a next state, and so does every step. -/
def Obligations.EveryCommandAnswers : Prop :=
  (∀ (i : Instr) (s : State), ∃ t, exec i s = .next t) ∧ ∀ s : State, Safe s

/-- No command touches the queue of those behind it. -/
def Obligations.CommandsKeepQueue : Prop :=
  ∀ (i : Instr) (s t : State), exec i s = .next t → t.pending = s.pending

/-- The state after reset is well formed: every memory canonical, the three slots distinct. -/
def Obligations.ResetKeepsInvariant : Prop := State.Inv State.reset

/-- Every step keeps every memory in its canonical form and the boot record's three slots distinct (R631). -/
def Obligations.StepKeepsInvariant : Prop :=
  ∀ s t : State, s.Inv → step s = .next t → t.Inv

/-- After reset the part is in Run with nothing waiting, staged or shown: the registers read their reset values, every
Wicker group is enabled (R552), no interrupt source is claimed, no error is held, and no memory lists a byte. -/
def Obligations.ResetLeaves : Prop :=
  let d := State.reset.dev
  State.reset.pending = [] ∧ d.life = .up ∧ pwrState d = 0 ∧ (∀ a, reg d a = regReset a) ∧
    rf d (wkrA 0x104) 15 0 = 0xFFFF ∧ (∀ k : Fin 192, srcState d k = 0) ∧ curValid d = false ∧ preValid d = false ∧
    d.upd.sess = none ∧ State.reset.mem.host = [] ∧ State.reset.mem.lpx = [] ∧ State.reset.mem.qdr = []

/-- A part that a missing rail or TEST_EN holds in reset (held 3 or 5) stays as it is under every command but
POWER_ON_RESET and SUPPLY_RAIL_LOSS. REF_ROOT_OK only notes, in what outlives the reset, that the reference is back. -/
def Obligations.HeldPartStaysHeld : Prop :=
  ∀ (i : Instr) (s t : State), s.dev.life = .held 3 ∨ s.dev.life = .held 5 →
    (∀ v w x y z, i ≠ .powerOnReset v w x y z) → (∀ r, i ≠ .supplyRailLoss r) → exec i s = .next t →
    t.dev = s.dev ∧ t.mem = s.mem

/-- Commands that change the running part alone leave every memory and the boot record as they were. -/
def Obligations.PartCommandsLeaveMemories : Prop :=
  ∀ (i : Instr) (s t : State), exec i s = .next t →
    (match i with
      | .encoderEdge .. | .dueInstant _ | .latePulse _ | .timerTrigger _ | .trigNn .. | .los _ | .ssiFrame .. | .stale _
      | .index _ | .idxCorr _ | .speedOutput _ | .encAlign _ | .inputRecovers .. | .laneLock .. | .laneLockLoss .. | .slip ..
      | .lineStart .. | .videoPacket .. | .lineEnd _ | .lineMissing _ | .lineTimeout _ | .resendExpiry _ | .cameraStall _
      | .gpioMessage .. | .statusMsg .. | .camGpout .. | .scanStart _ | .scanDone .. | .ctleDfeUpdate .. | .waleTakeLine ..
      | .alignedLine .. | .contribution .. | .systemLineRelease _ | .stitchTimeout _ | .runFormation .. | .trackerLine _
      | .recipeCommit _ | .refineTimeout | .datagramSend _ | .fabLinkUp .. | .election | .refLineEffect | .record ..
      | .setGo _ | .ptpSync _ | .claimDelay _ | .takeover | .swapEffect | .groupEdge .. | .cellEdge .. | .complete ..
      | .swiSet _ | .rootLockLost | .weaverParity .. | .sensorRead .. | .thermTrip | .calDone .. | .correctedFault ..
      | .errorArrival _ | .errcDone _ | .snapGo | .microcodeChange => t.mem = s.mem ∧ t.boot = s.boot
      | _ => True)

/-! ## Errors, interrupts and events -/

/-- R612: the errors that wait on one edge are taken in descending severity, the lower code first on a tie. -/
def Obligations.ErrorsTakenBySeverityThenCode : Prop :=
  ∀ s : State, s.dev.life = .up → ∃ es : List ErrEvent,
    es.Perm s.dev.errIn ∧
    es.Pairwise (fun x y => y.sev < x.sev ∨ (x.sev = y.sev ∧ x.code ≤ y.code)) ∧
    exec (.errorArrival none) s = .next (s.withDev (es.foldl (fun d e => handleErr d s.boot e) { s.dev with errIn := [] }))

/-- R611: a DONE with CUR's SEQ ends CUR; what PRE holds moves to CUR, its words and SEQ unchanged, and is presented again
with REPRESENTED; a DONE naming another SEQ, or one that comes while CUR holds nothing, only counts in STRAY_CNT. -/
def Obligations.ErrorDoneEndsCurrent : Prop :=
  ∀ (s : State) (seq : BitVec 16), s.dev.life = .up →
    let d := s.dev
    let named := curValid d = true ∧ rf d (errcA (slotCur + 4)) 15 0 = seq.toNat
    ∃ e, exec (.errcDone seq) s = .next (s.withDev e) ∧ OnlyShown d e ∧
      (named → preValid d = true →
        (∀ i ∈ slotWords, reg e (errcA (slotCur + i)) = reg d (errcA (slotPre + i))) ∧ curValid e = true ∧
        rb e (errcA 0x108) 29 = true ∧ preValid e = false ∧ Out.msix 4 ∈ e.out ∧ rb e (ra pgErrc 0x010) 0 = true ∧
        SameRegs d e (errcA 0x108 :: ra pgErrc 0x010 ::
          (slotWords.map (fun i => errcA (slotCur + i)) ++ slotWords.map (fun i => errcA (slotPre + i))))) ∧
      (named → preValid d = false → curValid e = false ∧
        SameRegs d e (errcA 0x108 :: slotWords.map (fun i => errcA (slotCur + i)))) ∧
      (¬ named → rf e (errcA 0x194) 31 0 = satInc 32 (rf d (errcA 0x194) 31 0) 1 ∧ SameRegs d e [errcA 0x194])

/-- R565: a completion of a source that the writing target has not claimed is ignored; that target's STRAY_CNT
increments and STRAY_LAST records the source. -/
def Obligations.StrayCompletionIgnored : Prop :=
  ∀ (s : State) (tt : Fin 5) (src : Fin 512), s.dev.life = .up →
    ¬ (srcClaimed s.dev src = true ∧ claimant s.dev src = tt) →
    ∃ e, exec (.complete tt src) s = .next (s.withDev e) ∧
      rf e (intcA (0x110 + 0x20 * tt)) 31 0 = satInc 32 (rf s.dev (intcA (0x110 + 0x20 * tt)) 31 0) 1 ∧
      reg e (intcA (0x114 + 0x20 * tt)) = BitVec.ofNat 32 src ∧
      OnlyRegs s.dev e [intcA (0x110 + 0x20 * tt), intcA (0x114 + 0x20 * tt), ra pgIntc 0x010]

/-- R549: a rising edge that reaches a busy consumer is ignored: the slot's IGNORED count increments, and nothing else of
the part changes but the event that says so (and the edge by which R550 merges edges of one slot). -/
def Obligations.BusyConsumerIgnoresEdge : Prop :=
  ∀ (s : State) (slot : Fin 96), s.dev.life = .up →
    let d := s.dev
    let ignored := fun (t : Host.Outcome State Fault Refusal) => ∃ e, t = .next (s.withDev e) ∧
      rf e (wkrA (0xD00 + 4 * slot)) 31 16 = satInc 16 (rf d (wkrA (0xD00 + 4 * slot)) 31 16) 1 ∧
      SameRegs d e [wkrA (0xD00 + 4 * slot), ra pgWkr 0x010] ∧
      OnlyShown d { e with wkr := { e.wkr with rose := d.wkr.rose } }
    groupOn d slot = true → tat d.wkr.rose slot ≠ some d.cycle →
    (∀ nn : Fin 16, slotFeeds d slot (1 + nn) = true → targetBusy d (1 + nn) = true → ignored (exec (.trigNn nn slot) s)) ∧
    (slotFeeds d slot 0x020 = true → targetBusy d 0x020 = true → ignored (exec (.encAlign slot) s)) ∧
    (slotFeeds d slot 0x021 = true → snapBusy d = true → ignored (exec (.snapshot slot) s))

/-- R553: a group latch changes at most once per 10 ns; an edge that comes sooner is dropped, REFIRE is set, and the group's
REFIRE_CNT increments. -/
def Obligations.GroupLatchRefire : Prop :=
  ∀ (s : State) (g : Fin 16) (on off : Bool), s.dev.life = .up →
    let d := s.dev
    ∃ e, exec (.groupEdge g on off) s = .next (s.withDev e) ∧
      (rb e (wkrA 0x104) g ≠ rb d (wkrA 0x104) g →
        within10 d (tat d.wkr.groupAt g) = false ∧ tat e.wkr.groupAt g = some d.cycle) ∧
      (rb d (wkrA (0xA80 + 8 * g)) 31 = true → on || off → within10 d (tat d.wkr.groupAt g) = true →
        rb e (wkrA 0x100) 29 = true ∧
        rf e (wkrA (0xA84 + 8 * g)) 31 16 = satInc 16 (rf d (wkrA (0xA84 + 8 * g)) 31 16) 1 ∧
        OnlyRegs d e [wkrA 0x100, wkrA (0xA84 + 8 * g), ra pgWkr 0x010])

/-- R616: while a snapshot latches, a GO write sets REFUSED, an error trigger counts in SNAP_LOST_CNT and raises LOST, a
Wicker trigger does nothing of a snapshot's, and an epoch trigger waits and latches once that snapshot completes. -/
def Obligations.TriggerWhileSnapshotLatches : Prop :=
  ∀ s : State, s.dev.life = .up → snapBusy s.dev = true →
    let d := s.dev
    (∃ e, exec .snapGo s = .next (s.withDev e) ∧ rb e (ra pgSnap 0x104) 30 = true ∧ snapBusy e = true ∧
      OnlyRegs d e [ra pgSnap 0x104]) ∧
    (let e := snapTrigger d s.boot 4;
      rf e (ra pgSnap 0x108) 31 0 = satInc 32 (rf d (ra pgSnap 0x108) 31 0) 1 ∧ rb e (ra pgSnap 0x010) 1 = true ∧
      OnlyRegs d e [ra pgSnap 0x108, ra pgSnap 0x010]) ∧
    snapTrigger d s.boot 2 = d ∧
    (let e := snapTrigger d s.boot 3;
      e = { d with health := { d.health with snapWaits := true } } ∧
      ∃ z, exec .snapshotComplete (s.withDev e) = .next (s.withDev (snapTake z s.boot 3)) ∧
        rb z (ra pgSnap 0x104) 31 = false ∧ z.health.snapWaits = false)

/-- Writes of 1 to INTC_SWI_SET set software sources and writes of 1 to INTC_SWI clear them (R570); a level that neither
names stays. The two commands give the register the same value from any register they start on. -/
def Obligations.SoftwareSourceLevels : Prop :=
  ∀ (s : State) (bits : Word), s.dev.life = .up →
    (∃ e, exec (.swiSet bits) s = .next (s.withDev e) ∧ ∀ k < 32, rb e (intcA 0x1A8) k = (rb s.dev (intcA 0x1A8) k || bitOf bits k)) ∧
    (∃ e, exec (.swiClear bits) s = .next (s.withDev e) ∧ ∀ k < 32, rb e (intcA 0x1A8) k = (rb s.dev (intcA 0x1A8) k && !bitOf bits k))

/-! ## Wicker's routing -/

/-- A write that would close a loop is refused, and changes no routing: no WKR_ROUTING_WRITE makes a loop (R557, R558). -/
def Obligations.RoutingStaysLoopFree : Prop :=
  ∀ (s t : State) (off : Nat) (v : Word), wkrLoops s.dev = false → exec (.wkrRoutingWrite off v) s = .next t →
    wkrLoops t.dev = false

/-- WKR_PSELpp takes a code that names a producer; any other value is refused, and leaves the row fed as it was (R546). -/
def Obligations.ProducerSelectChecked : Prop :=
  ∀ (s : State) (pp : Fin 96) (v : Word), s.dev.life = .up →
    ∃ e, exec (.pselWrite pp v) s = .next (s.withDev e) ∧
      (codeKnown (v.toNat % 65536) = true → rf e (wkrA (0x180 + 4 * pp)) 15 0 = v.toNat % 65536 ∧
        OnlyRegs s.dev e [wkrA (0x180 + 4 * pp)]) ∧
      (codeKnown (v.toNat % 65536) = false → rb e (wkrA 0x100) 30 = true ∧
        rf e (wkrA 0x100) 11 0 = 0x180 + 4 * pp ∧ OnlyRegs s.dev e [wkrA 0x100, ra pgWkr 0x010])

/-! ## Time -/

/-- A step of the time counter asked for in Run with TIME_VALID set and no FORCE is refused, and changes nothing: the part
notes STEP_REFUSED and counts it (R499). -/
def Obligations.TimeStepRefusedInRun : Prop :=
  ∀ (s : State) (i : Instr), s.dev.life = .up → i = .setGo false ∨ i = .stepGo false →
    let d := s.dev
    d.time.valid = true → rf d (ra pgPwr 0x104) 31 30 = 0 →
    ∃ e, exec i s = .next (s.withDev e) ∧ e.time = d.time ∧ rb e (timeA 0x104) 27 = true ∧ rb e (ra pgTime 0x010) 1 = true ∧
      rf e (timeA 0x148) 31 0 = satInc 32 (rf d (timeA 0x148) 31 0) 1 ∧
      OnlyRegs d e [timeA 0x104, timeA 0x148, ra pgTime 0x010]

/-- An accepted step sets the counter, discards what is left of ADJ, sets TIME_VALID, counts in STEP_CNT, raises TIME_SET
and issues one position note (R500). -/
def Obligations.TimeStepTakesEffect : Prop :=
  ∀ (s : State) (force : Bool), s.dev.life = .up → stepAllowed s.dev force = true →
    let d := s.dev
    let ns := toSigned 64 (reg64 d (timeA 0x13C))
    ∃ e r, exec (.stepGo force) s = .next (s.withDev e) ∧
      (e.time.now : Int) = ((d.time.now : Int) + ns * 2 ^ 32) % timeWrap ∧ e.time.adj = 0 ∧ e.time.valid = true ∧
      rf e (timeA 0x14C) 31 0 = satInc 32 (rf d (timeA 0x14C) 31 0) 1 ∧ rb e (ra pgTime 0x010) 0 = true ∧
      e.bin.notes = d.bin.notes ++ [r] ∧ e.border = d.border ∧ SameRegs d e [timeA 0x14C, ra pgTime 0x010]

/-- A write of TIME_SLEW_MAX beyond a limit is stored as that limit and sets SLEW_CLIPPED; one within the limits is stored
and leaves SLEW_CLIPPED as it was (R494). The part is outside a Pairing and no access waits. -/
def Obligations.SlewMaximumIsClipped : Prop :=
  ∀ (s : State) (v : Word), s.dev.life = .up → pairEn s.dev = false → s.dev.pwr.held = [] →
    let d := s.dev
    ∃ e, exec (.registerWrite (.bar0Write (timeA 0x11C) v 0xF)) s = .next (s.withDev e) ∧
      rf e (timeA 0x11C) 21 0 = max 10738 (min (fld v 21 0) 2147483) ∧
      rb e (timeA 0x104) 28 = (rb d (timeA 0x104) 28 || decide (fld v 21 0 < 10738 ∨ 2147483 < fld v 21 0)) ∧
      SameRegs d e [timeA 0x11C, timeA 0x104, ra pgTime 0x010]

/-- R510: a frame of the bridge whose other port is down, or whose residence would exceed 10 µs, is dropped: TC_DROP_CNT of
that port increments and TC_DROP is raised. -/
def Obligations.BridgeDropsFrame : Prop :=
  ∀ (s : State) (f : BridgeFrame), s.dev.life = .up → rb s.dev (ptpA 0x100) 27 = true → f.toPartAlone = false →
    let d := s.dev
    let q := 1 - f.port.val
    d.ethUp.contains q = false ∨ 10000 * 65536 < f.residence + latIngress d f.port + latEgress d q →
    ∃ e, exec (.tcForward f) s = .next (s.withDev e) ∧ rb e (ra pgTime 0x010) 5 = true ∧
      rf e (ptpA (0x128 + 0x10 * q)) 31 0 = satInc 32 (rf d (ptpA (0x128 + 0x10 * q)) 31 0) 1 ∧
      (∀ p c, Out.bridge p c ∈ e.out → Out.bridge p c ∈ d.out) ∧
      OnlyRegs d e [ptpA (0x128 + 0x10 * q), ra pgTime 0x010]

/-! ## Fabric and Pairing -/

/-- A frame that is malformed or fails its CRC is discarded and counted, and answered by one NAK that names the expected
LSEQ; while that value stands no second one is sent. A duplicate is discarded and acknowledged (R457). -/
def Obligations.DamagedFrameIsDiscarded : Prop :=
  ∀ (s : State) (p : Fin 5) (f : Frame) (w : Wire), s.dev.life = .up → fabUp s.dev p = true →
    let d := s.dev
    (malformed d p f w = true ∨ w.crcOk = false → ∃ e, exec (.frameReceive p f w) s = .next (s.withDev (sendNak e p)) ∧
      OnlyRegs d e [ra (pgFabPort p) 0x118, ra (pgFabPort p) 0x110, ra (pgFabPort p) 0x010] ∧
      ((fbp d p).nakFor = some (fbp d p).rxSeq → sendNak e p = e) ∧
      ((fbp d p).nakFor ≠ some (fbp d p).rxSeq → sendNak e p =
        sendLink (setFbp e p { (fbp d p) with nakFor := some (fbp d p).rxSeq, nakAt := d.cycle }) p
          [dpack [(60, 4, 1), (0, 12, (fbp d p).rxSeq)]])) ∧
    (malformed d p f w = false → w.crcOk = true → f.cls ≠ 0 →
      let z := takeTrailer d p f
      f.lseq.toNat ≠ (fbp z p).rxSeq → ((fbp z p).rxSeq + 4096 - f.lseq.toNat) % 4096 ≤ 2048 →
      exec (.frameReceive p f w) s = .next (s.withDev
        (setFbp z p { (fbp z p) with ackAt := some ((fbp z p).ackAt.getD z.cycle) })))

/-- FAB_EPOCH_GO.GO is refused with LAST_RESULT 0b100 while PENDING is set, for a line below the lead, for an ID of 0, and
on a node that is not the master; nothing is broadcast and no commit starts (R484). -/
def Obligations.EpochStartRefused : Prop :=
  ∀ (s : State) (v : Word), s.dev.life = .up → pairEn s.dev = false → s.dev.pwr.held = [] →
    let d := s.dev
    rb d epochStatA 31 = true ∨ reg64 d (ra pgFab 0x134) < d.pos.sysLine + rf d (ra pgFab 0x12C) 15 0 ∨
      reg d (ra pgFab 0x130) = 0 ∨ isMaster d = false →
    ∃ e, exec (.epochGo v) s = .next (s.withDev e) ∧ rf e epochStatA 30 28 = 4 ∧ e.node = d.node ∧ e.out = d.out ∧
      OnlyRegs d e [ra pgFab 0x13C, epochStatA]

/-- A swap asked for on a part that is not PROTECTED, or at a line less than 64 ahead, is refused: SWAP_REFUSED is set, and
the swap that may be pending stands (R536). -/
def Obligations.SwapRefused : Prop :=
  ∀ s : State, s.dev.life = .up →
    let d := s.dev
    pairEn d = false ∨ pairState d ≠ 4 ∨ reg64 d (pairA 0x10C) < d.pos.sysLine + 64 →
    ∃ e, exec (.swap 0x80000000) s = .next (s.withDev e) ∧ rb e (pairA 0x104) 22 = true ∧ e.pair = d.pair ∧
      OnlyRegs d e [pairA 0x104]

/-! ## Cameras, wales, the tracker -/

/-- A GPIO message sets a port's input levels. A change at a CAMnn_GPOUT consumer sends one message with the new levels; one
that the uplink cannot carry counts in GPIO_MERGE_CNT and sends none (R140). -/
def Obligations.CameraGpioMessages : Prop :=
  ∀ (s : State) (n : Fin 16), s.dev.life = .up →
    let d := s.dev
    (∀ levels : BitVec 4, ∃ e, exec (.gpioMessage n levels) s = .next (s.withDev e) ∧
      rf e (ra (pgSkein n) 0x120) 3 0 = levels.toNat ∧ OnlyRegs d e [ra (pgSkein n) 0x120] ∧ e.out = d.out) ∧
    (∀ (k : Fin 4) level, (skp d n).gpOut.testBit k ≠ level → txOn d n = true →
      (∃ e, exec (.camGpout n k level true) s = .next (s.withDev e) ∧ e.out = .gpioMsg n (skp e n).gpOut :: d.out ∧
        SameRegs d e [ra (pgSkein n) 0x120]) ∧
      (∃ e, exec (.camGpout n k level false) s = .next (s.withDev e) ∧ e.out = d.out ∧
        rf e (ra (pgSkein n) 0x154) 31 0 = satInc 32 (rf d (ra (pgSkein n) 0x154) 31 0) 1 ∧
        SameRegs d e [ra (pgSkein n) 0x154]))

/-- A fault contained at a Stake die isolates it: its four wales are stopped, its rod is closed, one error of severity 2
waits, and the rods and wales of the other dies go on. A die that is isolated stays so (R75). -/
def Obligations.StakeDieIsolated : Prop :=
  ∀ (s : State) (k : Fin 4) (detail : Word), s.dev.life = .up →
    let d := s.dev
    ∃ e, exec (.stakeIsolated k detail) s = .next (s.withDev e) ∧
      (∀ w : Fin 16, w.val / 4 = k → stopCause e w = some 0x18) ∧
      (∀ w : Fin 16, w.val / 4 ≠ k → stopCause e w = stopCause d w) ∧
      (d.iso.contains k.val = true → e = d) ∧
      (d.iso.contains k.val = false → (∀ r ∈ e.rods, r.wale / 4 ≠ k) ∧ (∀ r ∈ d.rods, r.wale / 4 ≠ k → r ∈ e.rods) ∧
        ∃ x, e.errIn = d.errIn ++ [x] ∧ x.code = 0x10 ∧ x.sev = 2) ∧
      e.wale = d.wale ∧ e.stn = d.stn ∧ e.trk = d.trk

/-- A parity error in a weaver is reported at severity 2 as WEAVER_PARITY, its detail naming context, wale, rand and
weaver (R72), and falls on one line of that wale's context alone: the next that its rand takes (the model's choice, DEDUCED, log 38). -/
def Obligations.WeaverParityReported : Prop :=
  ∀ (s : State) (ctx : Bool) (w : Fin 16) (rand : Fin 4) (k : Fin 6) (colour : Bool), s.dev.life = .up →
    let d := s.dev
    ∃ e x es, exec (.weaverParity ctx w rand k colour) s = .next (s.withDev e) ∧
      e.errIn = d.errIn ++ x :: es ∧ x.code = 0x11 ∧ x.sev = 2 ∧
      x.detail = 4096 * ctx.toNat + 256 * w.val + 16 * rand.val + k.val ∧
      (wst e w ctx.toNat).faults = (wst d w ctx.toNat).faults ++ [parityStage rand colour] ∧
      (∀ (v : Fin 16) (c : Bool), v ≠ w ∨ c ≠ ctx → wst e v c.toNat = wst d v c.toNat)

/-- Writing 1 to a BROKEN bit re-arms that side: the bit clears, nothing of what was exchanged before is kept, and the other
side is as it was. On a side that is intact it does nothing (R318). -/
def Obligations.SeamSideRearmed : Prop :=
  ∀ (s : State) (right : Bool), s.dev.life = .up →
    let d := s.dev
    let bit := if right then 30 else 31
    ∃ e, exec (.seamRearm (!right) right) s = .next (s.withDev e) ∧
      rb e (ra pgTrk 0x164) bit = false ∧ SameRegs d e [ra pgTrk 0x164] ∧ sideOf e (!right) = sideOf d (!right) ∧
      (rb d (ra pgTrk 0x164) bit = true → (sideOf e right).own = [] ∧ (sideOf e right).nb = []) ∧
      (rb d (ra pgTrk 0x164) bit = false → e = d)

/-! ## The host's accesses -/

/-- What comes of an access that R667 does not take, on a part outside a Pairing with no access waiting: on an unmapped page
a write is dropped and a read returns all ones, DEV_BADACC and DEV_BADACC_CNT telling of it; on a mapped page a write that is
unaligned or not of all bytes is discarded, and an unaligned read returns all ones, ACCESS_ERR telling of it. -/
def Obligations.RefusedAccessesAreNoted : Prop :=
  ∀ (s : State) (a : Nat) (v : Word) (be : BitVec 4), s.dev.life = .up → s.dev.pwr.held = [] →
    let d := s.dev
    (mapped a = false → a < 2 ^ 30 →
      (∃ e, exec (.registerWrite (.bar0Write a v be)) s = .next (s.withDev e) ∧
        reg e (ra pgDev 0x10C) = wpack [(31, 1, 1), (0, 30, a)] ∧
        rf e (ra pgDev 0x110) 31 0 = satInc 32 (rf d (ra pgDev 0x110) 31 0) 1 ∧ e.out = d.out ∧
        OnlyRegs d e [ra pgDev 0x10C, ra pgDev 0x110]) ∧
      (∃ e, exec (.registerWrite (.bar0Read a)) s = .next (s.withDev e) ∧
        reg e (ra pgDev 0x10C) = wpack [(0, 30, a)] ∧
        rf e (ra pgDev 0x110) 31 0 = satInc 32 (rf d (ra pgDev 0x110) 31 0) 1 ∧
        e.out = .readAnswer false a [0xFF, 0xFF, 0xFF, 0xFF] :: d.out ∧
        OnlyRegs d e [ra pgDev 0x10C, ra pgDev 0x110])) ∧
    (mapped a = true →
      (a % 4 ≠ 0 ∨ be ≠ 0xF → ∃ e, exec (.registerWrite (.bar0Write a v be)) s = .next (s.withDev e) ∧
        rb e (ra (a / 4096) 0x008) 7 = true ∧ e.out = d.out ∧ OnlyRegs d e [ra (a / 4096) 0x008]) ∧
      (a % 4 ≠ 0 → ∃ e, exec (.registerWrite (.bar0Read a)) s = .next (s.withDev e) ∧
        rb e (ra (a / 4096) 0x008) 7 = true ∧ e.out = .readAnswer false a [0xFF, 0xFF, 0xFF, 0xFF] :: d.out ∧
        OnlyRegs d e [ra (a / 4096) 0x008]))

/-- In recovery a page other than BOOT and UPD ignores writes and reads 0 (R628). -/
def Obligations.RecoveryPagesAreSilent : Prop :=
  ∀ (s : State) (a : Nat) (v : Word) (be : BitVec 4), s.dev.life = .recovery → a / 4096 ≠ pgBoot → a / 4096 ≠ pgUpd →
    exec (.registerWrite (.bar0Write a v be)) s = .next s ∧
    exec (.registerWrite (.bar0Read a)) s = .next (s.withDev (emit s.dev (.readAnswer false a [0, 0, 0, 0])))

/-- What a host writes to the update window of BAR2 it reads back; every other byte of BAR2, and everything beside the
window, is as it was (R638, R666). -/
def Obligations.UpdateWindowReadsBack : Prop :=
  ∀ (s : State) (o : Nat) (bs : List Byte), s.dev.life = .up → s.dev.pwr.held = [] → 0x30000000 ≤ o →
    o + bs.length ≤ 0x30010000 → bs ≠ [] →
    ∃ m, exec (.registerWrite (.bar2Write o bs)) s = .next (s.put (s.dev, m, s.boot)) ∧
      (∀ i, (h : i < bs.length) → barByte s.dev m (o + i) = bs[i]) ∧
      (∀ x, x < o ∨ o + bs.length ≤ x → barByte s.dev m x = barByte s.dev s.mem x) ∧
      { m with win := s.mem.win } = s.mem

/-- While a page is armed, a write of COMMIT_POS, and one of COMMIT_MODE without DISARM, is discarded and sets WR_LOCKED
(R661). The part is outside a Pairing and no access waits. -/
def Obligations.ArmedPageRefusesCommitWrites : Prop :=
  ∀ (s : State) (pg o : Nat) (v : Word), s.dev.life = .up → pairEn s.dev = false → s.dev.pwr.held = [] →
    (pageInfo pg).isSome = true → isShadowPage pg = true → (armOf s.dev pg).armed = true →
    (o = 0x028 ∧ bitOf v 29 = false) ∨ o = 0x02C ∨ o = 0x030 →
    ∃ e, exec (.registerWrite (.bar0Write (ra pg o) v 0xF)) s = .next (s.withDev e) ∧ rb e (ra pg 0x008) 6 = true ∧
      e.arming = s.dev.arming ∧ e.force = s.dev.force ∧ OnlyRegs s.dev e [ra pg 0x008]

/-- A PROD that would leave more entries than the submission ring has is refused and told, and PROD stands; a CONS that the
ring has not reached is refused, and CONS stands; the submission ring's own CONS is not the host's to write (R354). -/
def Obligations.RingIndicesAreChecked : Prop :=
  ∀ (s : State) (v : Word), s.dev.life = .up → pairEn s.dev = false → s.dev.pwr.held = [] →
    let d := s.dev
    (ringLen d 3 < (v.toNat + 2 ^ 32 - ringCons d 3) % 2 ^ 32 →
      ∃ e, exec (.doorbell v) s = .next (s.withDev e) ∧ rb e (ringA 3 28) 28 = true ∧ rb e (ra pgHif 0x010) 7 = true ∧
        OnlyRegs d e [ringA 3 28, ra pgHif 0x010]) ∧
    (∀ r : Fin 5, r ≠ 3 → ringLen d r < (ringProd d r + 2 ^ 32 - v.toNat) % 2 ^ 32 →
      ∃ e, exec (.ringConsWrite r v) s = .next (s.withDev e) ∧ rb e (ringA r 28) 30 = true ∧ OnlyRegs d e [ringA r 28]) ∧
    exec (.ringConsWrite 3 v) s = .next s

/-- A verdict replaces the class and the confidence of the pending record with its sequence number and releases it; no other
field and no other record changes, and none is withheld. One for a record that is not pending only counts (R346, R347). -/
def Obligations.VerdictChangesClassAndConfidence : Prop :=
  ∀ (s : State) (hi : Word), s.dev.life = .up → pairEn s.dev = false → s.dev.pwr.held = [] →
    let d := s.dev
    let seq := rf d (ra pgBorder 0x114) 31 16 + 65536 * hi.toNat
    let hit := fun (r : StoreRec) => r.relayed = false ∧ r.seq = seq ∧ r.due ≠ none
    ∃ e, exec (.borderVerdict hi) s = .next (s.withDev e) ∧ e.border.store.length = d.border.store.length ∧
      (∀ (k : Nat) (r : StoreRec), d.border.store[k]? = some r → ¬ hit r → e.border.store[k]? = some r) ∧
      (∀ (k : Nat) (r : StoreRec), d.border.store[k]? = some r → hit r → ∃ q : StoreRec, e.border.store[k]? = some q ∧
        dfld q.body.w0 47 40 = rf d (ra pgBorder 0x114) 15 8 ∧ dfld q.body.w1 15 8 = rf d (ra pgBorder 0x114) 7 0 ∧
        (∀ j < 64, j < 40 ∨ 48 ≤ j → q.body.w0.getLsbD j = r.body.w0.getLsbD j) ∧
        (∀ j < 64, j < 8 ∨ 16 ≤ j → q.body.w1.getLsbD j = r.body.w1.getLsbD j) ∧
        { q with due := r.due, body := { q.body with w0 := r.body.w0, w1 := r.body.w1 } } = r ∧ q.due = none) ∧
      ((∀ r ∈ d.border.store, ¬ hit r) → rf e (ra pgBorder 0x148) 31 0 = satInc 32 (rf d (ra pgBorder 0x148) 31 0) 1) ∧
      SameRegs d e [ra pgBorder 0x118, ra pgBorder 0x148] ∧ OnlyShown d { e with border := d.border } ∧
      { e.border with store := d.border.store } = d.border

/-! ## Memory controllers, monitors, power -/

/-- A change of the operating point does nothing while BUSY; one that names point 3, or a point whose tREFI or tRFCab is 0 or
whose training failed, sets OP_REFUSED and leaves the point in force (R412). -/
def Obligations.OperatingPointRefused : Prop :=
  ∀ (s : State) (p : BitVec 2), s.dev.life = .up →
    let d := s.dev
    let b := inForce d (ra pgLpx (0x204 + 0x20 * p.toNat))
    (rb d (ra pgLpx 0x104) 31 = true → exec (.lpxPointChange p) s = .next s) ∧
    (rb d (ra pgLpx 0x104) 31 = false → p.toNat ≠ lpxPoint d →
      p = 3 ∨ fld b 31 16 = 0 ∨ fld b 15 0 = 0 ∨ rb d (ra pgLpx 0x108) p.toNat = false →
      ∃ e, exec (.lpxPointChange p) s = .next (s.withDev e) ∧ rb e (ra pgLpx 0x104) 30 = true ∧
        lpxPoint e = lpxPoint d ∧ e.lpxch = d.lpxch ∧ OnlyRegs d e [ra pgLpx 0x104])

/-- A write of MON_BIN_SEL copies the bins of the monitor it names into MON_BIN0 to MON_BIN63, and changes nothing else
(R620). -/
def Obligations.MonitorBinsCopied : Prop :=
  ∀ (s : State) (mm : Fin 16), s.dev.life = .up →
    ∃ e, exec (.monBinSel mm) s = .next (s.withDev e) ∧ rf e (ra pgMon 0x300) 3 0 = mm.val ∧
      (∀ k : Fin 64, reg e (ra pgMon (0x400 + 4 * k)) = BitVec.ofNat 32 (tat s.dev.health.bins (64 * mm + k))) ∧
      OnlyRegs s.dev e (ra pgMon 0x300 :: (List.range 64).map (fun k => ra pgMon (0x400 + 4 * k)))

/-- Idle asked for in Run is refused with cause 0b001 while a camera port is enabled, a job runs or coils are open; else the
part shows Idle. Asked for in Idle, or Run asked for in Run, nothing changes (R572). -/
def Obligations.IdleRequests : Prop :=
  ∀ s : State, s.dev.life = .up → pairEn s.dev = false → s.dev.pwr.held = [] →
    let d := s.dev
    (pwrState d = 0 → idleHeld d = true → ∃ e, exec .reqIdle s = .next (s.withDev e) ∧ rb e (pwrA 0x104) 27 = true ∧
      rf e (pwrA 0x104) 26 24 = 1 ∧ pwrState e = 0 ∧ rb e (ra pgPwr 0x010) 2 = true ∧
      OnlyRegs d e [pwrA 0x104, ra pgPwr 0x010]) ∧
    (pwrState d = 0 → idleHeld d = false → ∃ e, exec .reqIdle s = .next (s.withDev e) ∧ pwrState e = 1 ∧
      rb e (ra pgPwr 0x010) 0 = true ∧ OnlyRegs d e [pwrA 0x104, ra pgPwr 0x010]) ∧
    (pwrState d = 1 → exec .reqIdle s = .next s) ∧ (pwrState d = 0 → exec .reqRun s = .next s)

/-! ## Reset, boot and update -/

/-- A tripped part is held until every Slath-zone sensor reads below 95 °C: until then neither the check nor a warm reset
ends it, and the latch of THERM_TRIP_N stands (R596). -/
def Obligations.TripHoldsWhileHot : Prop :=
  ∀ s : State, s.dev.life = .held 2 → slathCool s.dev = false → s.boot.testEn = false → s.boot.railsLost = [] →
    s.boot.refOk = true →
    exec .tripReleaseCheck s = .next s ∧
    ∃ t, exec .warmReset s = .next t ∧ t.dev.life = .held 2 ∧ rb t.dev thermStatA 26 = rb s.dev thermStatA 26

/-- An operation that names another source or token than the session's, and an OPEN while a session exists, is refused:
UPD_BUSY_CNT increments, and neither flash, the boot record nor the session changes (R636). Sources 2 and 3. -/
def Obligations.ForeignUpdateRefused : Prop :=
  ∀ (s : State) (r : UpdRequest) (force : Bool) (i : Instr), s.dev.life = .up → r.source = 2 ∨ r.source = 3 →
    served s.dev r.source.val = true → s.dev.upd.sess.isSome = true →
    (i = .updOpen r ∨ (owns s.dev r = false ∧ i ∈ [.updWrite r, .close r, .abort r, .status r, .activate r force])) →
    ∃ e op, exec i s = .next (s.withDev e) ∧ e.upd = s.dev.upd ∧
      rf e (ra pgUpd 0x11C) 31 0 = satInc 32 (rf s.dev (ra pgUpd 0x11C) 31 0) 1 ∧
      e.out = .updReply r.source.val (updHeader op UpdStatus.busy.code r.token.toNat r.payload.length r.offset r.crc.toNat)
        :: s.dev.out ∧
      OnlyRegs s.dev e [ra pgUpd 0x11C]

/-- ABORT by the owner ends the session at once, and leaves flash and the boot record, STAGED with it, as they are (R639). -/
def Obligations.OwnerAbortsSession : Prop :=
  ∀ (s : State) (r : UpdRequest), s.dev.life = .up → r.source = 2 ∨ r.source = 3 → served s.dev r.source.val = true →
    owns s.dev r = true →
    ∃ e, exec (.abort r) s = .next (s.withDev e) ∧ e.upd.sess = none
end

