-- ==== Sys2Proof/Laws/Bits.lean ====
section
/-!
SUPPORT. Laws of bit fields: what a field or a bit reads as after that one, or another, is replaced.
-/

namespace Sys2Proof.Machine

theorem maskOf_getLsbD (hi lo j : Nat) (hj : j < 32) :
    (maskOf hi lo).getLsbD j = (decide (lo ≤ j) && decide (j < hi + 1)) := by
  simp only [maskOf, BitVec.getLsbD_ofNat, hj, decide_true, Bool.true_and, Nat.testBit_shiftLeft, Nat.testBit_two_pow_sub_one]
  by_cases h : lo ≤ j
  · simp [h]; omega
  · simp [h]

theorem putFld_getLsbD (w : Word) (hi lo v j : Nat) (hj : j < 32) :
    (putFld w hi lo v).getLsbD j = if lo ≤ j ∧ j ≤ hi then v.testBit (j - lo) else w.getLsbD j := by
  simp only [putFld, BitVec.getLsbD_or, BitVec.getLsbD_and, BitVec.getLsbD_not, hj, maskOf_getLsbD hi lo j hj,
    BitVec.getLsbD_ofNat, Nat.testBit_shiftLeft, Nat.testBit_mod_two_pow, decide_true, Bool.true_and]
  by_cases h1 : lo ≤ j <;> by_cases h2 : j ≤ hi
  · simp [h1, h2, show j < hi + 1 by omega, show j - lo < hi + 1 - lo by omega]
  · simp [h1, h2, show ¬ j < hi + 1 by omega, show ¬ j - lo < hi + 1 - lo by omega]
  · simp [h1, h2]
  · simp [h1, h2]

theorem fld_testBit (w : Word) (hi lo j : Nat) : (fld w hi lo).testBit j = (decide (j < hi + 1 - lo) && w.getLsbD (lo + j)) := by
  simp [fld, natField, Nat.testBit_mod_two_pow, Nat.testBit_shiftRight, BitVec.getLsbD]

theorem fld_putFld_self (w : Word) (hi lo v : Nat) (h : hi < 32) : fld (putFld w hi lo v) hi lo = v % 2 ^ (hi + 1 - lo) := by
  apply Nat.eq_of_testBit_eq
  intro j
  rw [fld_testBit, Nat.testBit_mod_two_pow]
  by_cases hj : j < hi + 1 - lo
  · rw [putFld_getLsbD w hi lo v (lo + j) (by omega)]
    simp [hj, show lo ≤ lo + j ∧ lo + j ≤ hi by omega]
  · simp [hj]

theorem fld_putFld_apart (w : Word) (hi lo v hi' lo' : Nat) (h : hi' < 32) (ha : hi' < lo ∨ hi < lo') :
    fld (putFld w hi lo v) hi' lo' = fld w hi' lo' := by
  apply Nat.eq_of_testBit_eq
  intro j
  rw [fld_testBit, fld_testBit]
  by_cases hj : j < hi' + 1 - lo'
  · rw [putFld_getLsbD w hi lo v (lo' + j) (by omega)]
    simp [hj, show ¬ (lo ≤ lo' + j ∧ lo' + j ≤ hi) by omega]
  · simp [hj]

theorem oneBit_getLsbD (i j : Nat) (hj : j < 32) : (BitVec.ofNat 32 (1 <<< i)).getLsbD j = decide (j = i) := by
  simp only [BitVec.getLsbD_ofNat, hj, decide_true, Bool.true_and, Nat.testBit_shiftLeft]
  by_cases h : j = i
  · subst h; simp
  · by_cases h1 : i ≤ j
    · have h2 : j - i ≠ 0 := by omega
      simp [h, h1, Nat.testBit_lt_two_pow (x := 1) (i := j - i) (Nat.one_lt_two_pow h2)]
    · simp [h, h1]

theorem putBit_getLsbD (w : Word) (i : Nat) (b : Bool) (j : Nat) (hj : j < 32) :
    (putBit w i b).getLsbD j = if j = i then b else w.getLsbD j := by
  cases b
  · show (w &&& ~~~ (BitVec.ofNat 32 (1 <<< i))).getLsbD j = _
    rw [BitVec.getLsbD_and, BitVec.getLsbD_not, oneBit_getLsbD i j hj]
    by_cases h : j = i <;> simp [h, hj]
  · show (w ||| BitVec.ofNat 32 (1 <<< i)).getLsbD j = _
    rw [BitVec.getLsbD_or, oneBit_getLsbD i j hj]
    by_cases h : j = i <;> simp [h]

theorem bitOf_putBit (w : Word) (i j : Nat) (b : Bool) (hj : j < 32) : bitOf (putBit w i b) j = if j = i then b else bitOf w j :=
  putBit_getLsbD w i b j hj

theorem bitOf_putFld (w : Word) (hi lo v j : Nat) (hj : j < 32) :
    bitOf (putFld w hi lo v) j = if lo ≤ j ∧ j ≤ hi then v.testBit (j - lo) else bitOf w j := putFld_getLsbD w hi lo v j hj

theorem fld_putBit_apart (w : Word) (i : Nat) (b : Bool) (hi lo : Nat) (h : hi < 32) (ha : i < lo ∨ hi < i) :
    fld (putBit w i b) hi lo = fld w hi lo := by
  apply Nat.eq_of_testBit_eq
  intro j
  rw [fld_testBit, fld_testBit]
  by_cases hj : j < hi + 1 - lo
  · rw [putBit_getLsbD w i b (lo + j) (by omega)]
    simp [hj, show ¬ (lo + j = i) by omega]
  · simp [hj]
end Sys2Proof.Machine
end

