-- ==== Sys2Proof/Laws/State.lean ====
section
/-!
SUPPORT. What each shared operation leaves as it was: one lemma per field and operation, so that no proof unfolds a
record update.
-/

namespace Sys2Proof.Machine

/-! ### setReg -/

@[simp] theorem setReg_cycle (d : Dev) (a : Nat) (w : Word) : (setReg d a w).cycle = d.cycle := rfl
@[simp] theorem setReg_force (d : Dev) (a : Nat) (w : Word) : (setReg d a w).force = d.force := rfl
@[simp] theorem setReg_latch (d : Dev) (a : Nat) (w : Word) : (setReg d a w).latch = d.latch := rfl
@[simp] theorem setReg_ver (d : Dev) (a : Nat) (w : Word) : (setReg d a w).ver = d.ver := rfl
@[simp] theorem setReg_past (d : Dev) (a : Nat) (w : Word) : (setReg d a w).past = d.past := rfl
@[simp] theorem setReg_arming (d : Dev) (a : Nat) (w : Word) : (setReg d a w).arming = d.arming := rfl
@[simp] theorem setReg_out (d : Dev) (a : Nat) (w : Word) : (setReg d a w).out = d.out := rfl
@[simp] theorem setReg_errIn (d : Dev) (a : Nat) (w : Word) : (setReg d a w).errIn = d.errIn := rfl
@[simp] theorem setReg_pos (d : Dev) (a : Nat) (w : Word) : (setReg d a w).pos = d.pos := rfl
@[simp] theorem setReg_enc (d : Dev) (a : Nat) (w : Word) : (setReg d a w).enc = d.enc := rfl
@[simp] theorem setReg_cmp (d : Dev) (a : Nat) (w : Word) : (setReg d a w).cmp = d.cmp := rfl
@[simp] theorem setReg_trg (d : Dev) (a : Nat) (w : Word) : (setReg d a w).trg = d.trg := rfl
@[simp] theorem setReg_skein (d : Dev) (a : Nat) (w : Word) : (setReg d a w).skein = d.skein := rfl
@[simp] theorem setReg_wale (d : Dev) (a : Nat) (w : Word) : (setReg d a w).wale = d.wale := rfl
@[simp] theorem setReg_stn (d : Dev) (a : Nat) (w : Word) : (setReg d a w).stn = d.stn := rfl
@[simp] theorem setReg_seg (d : Dev) (a : Nat) (w : Word) : (setReg d a w).seg = d.seg := rfl
@[simp] theorem setReg_rods (d : Dev) (a : Nat) (w : Word) : (setReg d a w).rods = d.rods := rfl
@[simp] theorem setReg_trk (d : Dev) (a : Nat) (w : Word) : (setReg d a w).trk = d.trk := rfl
@[simp] theorem setReg_qdrBad (d : Dev) (a : Nat) (w : Word) : (setReg d a w).qdrBad = d.qdrBad := rfl
@[simp] theorem setReg_iso (d : Dev) (a : Nat) (w : Word) : (setReg d a w).iso = d.iso := rfl
@[simp] theorem setReg_paused (d : Dev) (a : Nat) (w : Word) : (setReg d a w).paused = d.paused := rfl
@[simp] theorem setReg_stopped (d : Dev) (a : Nat) (w : Word) : (setReg d a w).stopped = d.stopped := rfl
@[simp] theorem setReg_refLines (d : Dev) (a : Nat) (w : Word) : (setReg d a w).refLines = d.refLines := rfl
@[simp] theorem setReg_time (d : Dev) (a : Nat) (w : Word) : (setReg d a w).time = d.time := rfl
@[simp] theorem setReg_bin (d : Dev) (a : Nat) (w : Word) : (setReg d a w).bin = d.bin := rfl
@[simp] theorem setReg_border (d : Dev) (a : Nat) (w : Word) : (setReg d a w).border = d.border := rfl
@[simp] theorem setReg_hif (d : Dev) (a : Nat) (w : Word) : (setReg d a w).hif = d.hif := rfl
@[simp] theorem setReg_jobs (d : Dev) (a : Nat) (w : Word) : (setReg d a w).jobs = d.jobs := rfl
@[simp] theorem setReg_jobq (d : Dev) (a : Nat) (w : Word) : (setReg d a w).jobq = d.jobq := rfl
@[simp] theorem setReg_lpxch (d : Dev) (a : Nat) (w : Word) : (setReg d a w).lpxch = d.lpxch := rfl
@[simp] theorem setReg_ethUp (d : Dev) (a : Nat) (w : Word) : (setReg d a w).ethUp = d.ethUp := rfl
@[simp] theorem setReg_fab (d : Dev) (a : Nat) (w : Word) : (setReg d a w).fab = d.fab := rfl
@[simp] theorem setReg_node (d : Dev) (a : Nat) (w : Word) : (setReg d a w).node = d.node := rfl
@[simp] theorem setReg_img (d : Dev) (a : Nat) (w : Word) : (setReg d a w).img = d.img := rfl
@[simp] theorem setReg_restart (d : Dev) (a : Nat) (w : Word) : (setReg d a w).restart = d.restart := rfl
@[simp] theorem setReg_life (d : Dev) (a : Nat) (w : Word) : (setReg d a w).life = d.life := rfl
@[simp] theorem setReg_ptp (d : Dev) (a : Nat) (w : Word) : (setReg d a w).ptp = d.ptp := rfl
@[simp] theorem setReg_pair (d : Dev) (a : Nat) (w : Word) : (setReg d a w).pair = d.pair := rfl
@[simp] theorem setReg_wkr (d : Dev) (a : Nat) (w : Word) : (setReg d a w).wkr = d.wkr := rfl
@[simp] theorem setReg_intc (d : Dev) (a : Nat) (w : Word) : (setReg d a w).intc = d.intc := rfl
@[simp] theorem setReg_pwr (d : Dev) (a : Nat) (w : Word) : (setReg d a w).pwr = d.pwr := rfl
@[simp] theorem setReg_therm (d : Dev) (a : Nat) (w : Word) : (setReg d a w).therm = d.therm := rfl
@[simp] theorem setReg_health (d : Dev) (a : Nat) (w : Word) : (setReg d a w).health = d.health := rfl
@[simp] theorem setReg_upd (d : Dev) (a : Nat) (w : Word) : (setReg d a w).upd = d.upd := rfl

/-! ### setForce -/

@[simp] theorem setForce_cycle (d : Dev) (a : Nat) (w : Word) : (setForce d a w).cycle = d.cycle := rfl
@[simp] theorem setForce_regs (d : Dev) (a : Nat) (w : Word) : (setForce d a w).regs = d.regs := rfl
@[simp] theorem setForce_latch (d : Dev) (a : Nat) (w : Word) : (setForce d a w).latch = d.latch := rfl
@[simp] theorem setForce_ver (d : Dev) (a : Nat) (w : Word) : (setForce d a w).ver = d.ver := rfl
@[simp] theorem setForce_past (d : Dev) (a : Nat) (w : Word) : (setForce d a w).past = d.past := rfl
@[simp] theorem setForce_arming (d : Dev) (a : Nat) (w : Word) : (setForce d a w).arming = d.arming := rfl
@[simp] theorem setForce_out (d : Dev) (a : Nat) (w : Word) : (setForce d a w).out = d.out := rfl
@[simp] theorem setForce_errIn (d : Dev) (a : Nat) (w : Word) : (setForce d a w).errIn = d.errIn := rfl
@[simp] theorem setForce_pos (d : Dev) (a : Nat) (w : Word) : (setForce d a w).pos = d.pos := rfl
@[simp] theorem setForce_enc (d : Dev) (a : Nat) (w : Word) : (setForce d a w).enc = d.enc := rfl
@[simp] theorem setForce_cmp (d : Dev) (a : Nat) (w : Word) : (setForce d a w).cmp = d.cmp := rfl
@[simp] theorem setForce_trg (d : Dev) (a : Nat) (w : Word) : (setForce d a w).trg = d.trg := rfl
@[simp] theorem setForce_skein (d : Dev) (a : Nat) (w : Word) : (setForce d a w).skein = d.skein := rfl
@[simp] theorem setForce_wale (d : Dev) (a : Nat) (w : Word) : (setForce d a w).wale = d.wale := rfl
@[simp] theorem setForce_stn (d : Dev) (a : Nat) (w : Word) : (setForce d a w).stn = d.stn := rfl
@[simp] theorem setForce_seg (d : Dev) (a : Nat) (w : Word) : (setForce d a w).seg = d.seg := rfl
@[simp] theorem setForce_rods (d : Dev) (a : Nat) (w : Word) : (setForce d a w).rods = d.rods := rfl
@[simp] theorem setForce_trk (d : Dev) (a : Nat) (w : Word) : (setForce d a w).trk = d.trk := rfl
@[simp] theorem setForce_qdrBad (d : Dev) (a : Nat) (w : Word) : (setForce d a w).qdrBad = d.qdrBad := rfl
@[simp] theorem setForce_iso (d : Dev) (a : Nat) (w : Word) : (setForce d a w).iso = d.iso := rfl
@[simp] theorem setForce_paused (d : Dev) (a : Nat) (w : Word) : (setForce d a w).paused = d.paused := rfl
@[simp] theorem setForce_stopped (d : Dev) (a : Nat) (w : Word) : (setForce d a w).stopped = d.stopped := rfl
@[simp] theorem setForce_refLines (d : Dev) (a : Nat) (w : Word) : (setForce d a w).refLines = d.refLines := rfl
@[simp] theorem setForce_time (d : Dev) (a : Nat) (w : Word) : (setForce d a w).time = d.time := rfl
@[simp] theorem setForce_bin (d : Dev) (a : Nat) (w : Word) : (setForce d a w).bin = d.bin := rfl
@[simp] theorem setForce_border (d : Dev) (a : Nat) (w : Word) : (setForce d a w).border = d.border := rfl
@[simp] theorem setForce_hif (d : Dev) (a : Nat) (w : Word) : (setForce d a w).hif = d.hif := rfl
@[simp] theorem setForce_jobs (d : Dev) (a : Nat) (w : Word) : (setForce d a w).jobs = d.jobs := rfl
@[simp] theorem setForce_jobq (d : Dev) (a : Nat) (w : Word) : (setForce d a w).jobq = d.jobq := rfl
@[simp] theorem setForce_lpxch (d : Dev) (a : Nat) (w : Word) : (setForce d a w).lpxch = d.lpxch := rfl
@[simp] theorem setForce_ethUp (d : Dev) (a : Nat) (w : Word) : (setForce d a w).ethUp = d.ethUp := rfl
@[simp] theorem setForce_fab (d : Dev) (a : Nat) (w : Word) : (setForce d a w).fab = d.fab := rfl
@[simp] theorem setForce_node (d : Dev) (a : Nat) (w : Word) : (setForce d a w).node = d.node := rfl
@[simp] theorem setForce_img (d : Dev) (a : Nat) (w : Word) : (setForce d a w).img = d.img := rfl
@[simp] theorem setForce_restart (d : Dev) (a : Nat) (w : Word) : (setForce d a w).restart = d.restart := rfl
@[simp] theorem setForce_life (d : Dev) (a : Nat) (w : Word) : (setForce d a w).life = d.life := rfl
@[simp] theorem setForce_ptp (d : Dev) (a : Nat) (w : Word) : (setForce d a w).ptp = d.ptp := rfl
@[simp] theorem setForce_pair (d : Dev) (a : Nat) (w : Word) : (setForce d a w).pair = d.pair := rfl
@[simp] theorem setForce_wkr (d : Dev) (a : Nat) (w : Word) : (setForce d a w).wkr = d.wkr := rfl
@[simp] theorem setForce_intc (d : Dev) (a : Nat) (w : Word) : (setForce d a w).intc = d.intc := rfl
@[simp] theorem setForce_pwr (d : Dev) (a : Nat) (w : Word) : (setForce d a w).pwr = d.pwr := rfl
@[simp] theorem setForce_therm (d : Dev) (a : Nat) (w : Word) : (setForce d a w).therm = d.therm := rfl
@[simp] theorem setForce_health (d : Dev) (a : Nat) (w : Word) : (setForce d a w).health = d.health := rfl
@[simp] theorem setForce_upd (d : Dev) (a : Nat) (w : Word) : (setForce d a w).upd = d.upd := rfl

/-! ### emit -/

@[simp] theorem emit_cycle (d : Dev) (o : Out) : (emit d o).cycle = d.cycle := rfl
@[simp] theorem emit_regs (d : Dev) (o : Out) : (emit d o).regs = d.regs := rfl
@[simp] theorem emit_force (d : Dev) (o : Out) : (emit d o).force = d.force := rfl
@[simp] theorem emit_latch (d : Dev) (o : Out) : (emit d o).latch = d.latch := rfl
@[simp] theorem emit_ver (d : Dev) (o : Out) : (emit d o).ver = d.ver := rfl
@[simp] theorem emit_past (d : Dev) (o : Out) : (emit d o).past = d.past := rfl
@[simp] theorem emit_arming (d : Dev) (o : Out) : (emit d o).arming = d.arming := rfl
@[simp] theorem emit_errIn (d : Dev) (o : Out) : (emit d o).errIn = d.errIn := rfl
@[simp] theorem emit_pos (d : Dev) (o : Out) : (emit d o).pos = d.pos := rfl
@[simp] theorem emit_enc (d : Dev) (o : Out) : (emit d o).enc = d.enc := rfl
@[simp] theorem emit_cmp (d : Dev) (o : Out) : (emit d o).cmp = d.cmp := rfl
@[simp] theorem emit_trg (d : Dev) (o : Out) : (emit d o).trg = d.trg := rfl
@[simp] theorem emit_skein (d : Dev) (o : Out) : (emit d o).skein = d.skein := rfl
@[simp] theorem emit_wale (d : Dev) (o : Out) : (emit d o).wale = d.wale := rfl
@[simp] theorem emit_stn (d : Dev) (o : Out) : (emit d o).stn = d.stn := rfl
@[simp] theorem emit_seg (d : Dev) (o : Out) : (emit d o).seg = d.seg := rfl
@[simp] theorem emit_rods (d : Dev) (o : Out) : (emit d o).rods = d.rods := rfl
@[simp] theorem emit_trk (d : Dev) (o : Out) : (emit d o).trk = d.trk := rfl
@[simp] theorem emit_qdrBad (d : Dev) (o : Out) : (emit d o).qdrBad = d.qdrBad := rfl
@[simp] theorem emit_iso (d : Dev) (o : Out) : (emit d o).iso = d.iso := rfl
@[simp] theorem emit_paused (d : Dev) (o : Out) : (emit d o).paused = d.paused := rfl
@[simp] theorem emit_stopped (d : Dev) (o : Out) : (emit d o).stopped = d.stopped := rfl
@[simp] theorem emit_refLines (d : Dev) (o : Out) : (emit d o).refLines = d.refLines := rfl
@[simp] theorem emit_time (d : Dev) (o : Out) : (emit d o).time = d.time := rfl
@[simp] theorem emit_bin (d : Dev) (o : Out) : (emit d o).bin = d.bin := rfl
@[simp] theorem emit_border (d : Dev) (o : Out) : (emit d o).border = d.border := rfl
@[simp] theorem emit_hif (d : Dev) (o : Out) : (emit d o).hif = d.hif := rfl
@[simp] theorem emit_jobs (d : Dev) (o : Out) : (emit d o).jobs = d.jobs := rfl
@[simp] theorem emit_jobq (d : Dev) (o : Out) : (emit d o).jobq = d.jobq := rfl
@[simp] theorem emit_lpxch (d : Dev) (o : Out) : (emit d o).lpxch = d.lpxch := rfl
@[simp] theorem emit_ethUp (d : Dev) (o : Out) : (emit d o).ethUp = d.ethUp := rfl
@[simp] theorem emit_fab (d : Dev) (o : Out) : (emit d o).fab = d.fab := rfl
@[simp] theorem emit_node (d : Dev) (o : Out) : (emit d o).node = d.node := rfl
@[simp] theorem emit_img (d : Dev) (o : Out) : (emit d o).img = d.img := rfl
@[simp] theorem emit_restart (d : Dev) (o : Out) : (emit d o).restart = d.restart := rfl
@[simp] theorem emit_life (d : Dev) (o : Out) : (emit d o).life = d.life := rfl
@[simp] theorem emit_ptp (d : Dev) (o : Out) : (emit d o).ptp = d.ptp := rfl
@[simp] theorem emit_pair (d : Dev) (o : Out) : (emit d o).pair = d.pair := rfl
@[simp] theorem emit_wkr (d : Dev) (o : Out) : (emit d o).wkr = d.wkr := rfl
@[simp] theorem emit_intc (d : Dev) (o : Out) : (emit d o).intc = d.intc := rfl
@[simp] theorem emit_pwr (d : Dev) (o : Out) : (emit d o).pwr = d.pwr := rfl
@[simp] theorem emit_therm (d : Dev) (o : Out) : (emit d o).therm = d.therm := rfl
@[simp] theorem emit_health (d : Dev) (o : Out) : (emit d o).health = d.health := rfl
@[simp] theorem emit_upd (d : Dev) (o : Out) : (emit d o).upd = d.upd := rfl

/-! ### poke -/

@[simp] theorem poke_cycle (d : Dev) (a hi lo v : Nat) : (poke d a hi lo v).cycle = d.cycle := rfl
@[simp] theorem poke_force (d : Dev) (a hi lo v : Nat) : (poke d a hi lo v).force = d.force := rfl
@[simp] theorem poke_latch (d : Dev) (a hi lo v : Nat) : (poke d a hi lo v).latch = d.latch := rfl
@[simp] theorem poke_ver (d : Dev) (a hi lo v : Nat) : (poke d a hi lo v).ver = d.ver := rfl
@[simp] theorem poke_past (d : Dev) (a hi lo v : Nat) : (poke d a hi lo v).past = d.past := rfl
@[simp] theorem poke_arming (d : Dev) (a hi lo v : Nat) : (poke d a hi lo v).arming = d.arming := rfl
@[simp] theorem poke_out (d : Dev) (a hi lo v : Nat) : (poke d a hi lo v).out = d.out := rfl
@[simp] theorem poke_errIn (d : Dev) (a hi lo v : Nat) : (poke d a hi lo v).errIn = d.errIn := rfl
@[simp] theorem poke_pos (d : Dev) (a hi lo v : Nat) : (poke d a hi lo v).pos = d.pos := rfl
@[simp] theorem poke_enc (d : Dev) (a hi lo v : Nat) : (poke d a hi lo v).enc = d.enc := rfl
@[simp] theorem poke_cmp (d : Dev) (a hi lo v : Nat) : (poke d a hi lo v).cmp = d.cmp := rfl
@[simp] theorem poke_trg (d : Dev) (a hi lo v : Nat) : (poke d a hi lo v).trg = d.trg := rfl
@[simp] theorem poke_skein (d : Dev) (a hi lo v : Nat) : (poke d a hi lo v).skein = d.skein := rfl
@[simp] theorem poke_wale (d : Dev) (a hi lo v : Nat) : (poke d a hi lo v).wale = d.wale := rfl
@[simp] theorem poke_stn (d : Dev) (a hi lo v : Nat) : (poke d a hi lo v).stn = d.stn := rfl
@[simp] theorem poke_seg (d : Dev) (a hi lo v : Nat) : (poke d a hi lo v).seg = d.seg := rfl
@[simp] theorem poke_rods (d : Dev) (a hi lo v : Nat) : (poke d a hi lo v).rods = d.rods := rfl
@[simp] theorem poke_trk (d : Dev) (a hi lo v : Nat) : (poke d a hi lo v).trk = d.trk := rfl
@[simp] theorem poke_qdrBad (d : Dev) (a hi lo v : Nat) : (poke d a hi lo v).qdrBad = d.qdrBad := rfl
@[simp] theorem poke_iso (d : Dev) (a hi lo v : Nat) : (poke d a hi lo v).iso = d.iso := rfl
@[simp] theorem poke_paused (d : Dev) (a hi lo v : Nat) : (poke d a hi lo v).paused = d.paused := rfl
@[simp] theorem poke_stopped (d : Dev) (a hi lo v : Nat) : (poke d a hi lo v).stopped = d.stopped := rfl
@[simp] theorem poke_refLines (d : Dev) (a hi lo v : Nat) : (poke d a hi lo v).refLines = d.refLines := rfl
@[simp] theorem poke_time (d : Dev) (a hi lo v : Nat) : (poke d a hi lo v).time = d.time := rfl
@[simp] theorem poke_bin (d : Dev) (a hi lo v : Nat) : (poke d a hi lo v).bin = d.bin := rfl
@[simp] theorem poke_border (d : Dev) (a hi lo v : Nat) : (poke d a hi lo v).border = d.border := rfl
@[simp] theorem poke_hif (d : Dev) (a hi lo v : Nat) : (poke d a hi lo v).hif = d.hif := rfl
@[simp] theorem poke_jobs (d : Dev) (a hi lo v : Nat) : (poke d a hi lo v).jobs = d.jobs := rfl
@[simp] theorem poke_jobq (d : Dev) (a hi lo v : Nat) : (poke d a hi lo v).jobq = d.jobq := rfl
@[simp] theorem poke_lpxch (d : Dev) (a hi lo v : Nat) : (poke d a hi lo v).lpxch = d.lpxch := rfl
@[simp] theorem poke_ethUp (d : Dev) (a hi lo v : Nat) : (poke d a hi lo v).ethUp = d.ethUp := rfl
@[simp] theorem poke_fab (d : Dev) (a hi lo v : Nat) : (poke d a hi lo v).fab = d.fab := rfl
@[simp] theorem poke_node (d : Dev) (a hi lo v : Nat) : (poke d a hi lo v).node = d.node := rfl
@[simp] theorem poke_img (d : Dev) (a hi lo v : Nat) : (poke d a hi lo v).img = d.img := rfl
@[simp] theorem poke_restart (d : Dev) (a hi lo v : Nat) : (poke d a hi lo v).restart = d.restart := rfl
@[simp] theorem poke_life (d : Dev) (a hi lo v : Nat) : (poke d a hi lo v).life = d.life := rfl
@[simp] theorem poke_ptp (d : Dev) (a hi lo v : Nat) : (poke d a hi lo v).ptp = d.ptp := rfl
@[simp] theorem poke_pair (d : Dev) (a hi lo v : Nat) : (poke d a hi lo v).pair = d.pair := rfl
@[simp] theorem poke_wkr (d : Dev) (a hi lo v : Nat) : (poke d a hi lo v).wkr = d.wkr := rfl
@[simp] theorem poke_intc (d : Dev) (a hi lo v : Nat) : (poke d a hi lo v).intc = d.intc := rfl
@[simp] theorem poke_pwr (d : Dev) (a hi lo v : Nat) : (poke d a hi lo v).pwr = d.pwr := rfl
@[simp] theorem poke_therm (d : Dev) (a hi lo v : Nat) : (poke d a hi lo v).therm = d.therm := rfl
@[simp] theorem poke_health (d : Dev) (a hi lo v : Nat) : (poke d a hi lo v).health = d.health := rfl
@[simp] theorem poke_upd (d : Dev) (a hi lo v : Nat) : (poke d a hi lo v).upd = d.upd := rfl

/-! ### pokeBit -/

@[simp] theorem pokeBit_cycle (d : Dev) (a i : Nat) (b : Bool) : (pokeBit d a i b).cycle = d.cycle := rfl
@[simp] theorem pokeBit_force (d : Dev) (a i : Nat) (b : Bool) : (pokeBit d a i b).force = d.force := rfl
@[simp] theorem pokeBit_latch (d : Dev) (a i : Nat) (b : Bool) : (pokeBit d a i b).latch = d.latch := rfl
@[simp] theorem pokeBit_ver (d : Dev) (a i : Nat) (b : Bool) : (pokeBit d a i b).ver = d.ver := rfl
@[simp] theorem pokeBit_past (d : Dev) (a i : Nat) (b : Bool) : (pokeBit d a i b).past = d.past := rfl
@[simp] theorem pokeBit_arming (d : Dev) (a i : Nat) (b : Bool) : (pokeBit d a i b).arming = d.arming := rfl
@[simp] theorem pokeBit_out (d : Dev) (a i : Nat) (b : Bool) : (pokeBit d a i b).out = d.out := rfl
@[simp] theorem pokeBit_errIn (d : Dev) (a i : Nat) (b : Bool) : (pokeBit d a i b).errIn = d.errIn := rfl
@[simp] theorem pokeBit_pos (d : Dev) (a i : Nat) (b : Bool) : (pokeBit d a i b).pos = d.pos := rfl
@[simp] theorem pokeBit_enc (d : Dev) (a i : Nat) (b : Bool) : (pokeBit d a i b).enc = d.enc := rfl
@[simp] theorem pokeBit_cmp (d : Dev) (a i : Nat) (b : Bool) : (pokeBit d a i b).cmp = d.cmp := rfl
@[simp] theorem pokeBit_trg (d : Dev) (a i : Nat) (b : Bool) : (pokeBit d a i b).trg = d.trg := rfl
@[simp] theorem pokeBit_skein (d : Dev) (a i : Nat) (b : Bool) : (pokeBit d a i b).skein = d.skein := rfl
@[simp] theorem pokeBit_wale (d : Dev) (a i : Nat) (b : Bool) : (pokeBit d a i b).wale = d.wale := rfl
@[simp] theorem pokeBit_stn (d : Dev) (a i : Nat) (b : Bool) : (pokeBit d a i b).stn = d.stn := rfl
@[simp] theorem pokeBit_seg (d : Dev) (a i : Nat) (b : Bool) : (pokeBit d a i b).seg = d.seg := rfl
@[simp] theorem pokeBit_rods (d : Dev) (a i : Nat) (b : Bool) : (pokeBit d a i b).rods = d.rods := rfl
@[simp] theorem pokeBit_trk (d : Dev) (a i : Nat) (b : Bool) : (pokeBit d a i b).trk = d.trk := rfl
@[simp] theorem pokeBit_qdrBad (d : Dev) (a i : Nat) (b : Bool) : (pokeBit d a i b).qdrBad = d.qdrBad := rfl
@[simp] theorem pokeBit_iso (d : Dev) (a i : Nat) (b : Bool) : (pokeBit d a i b).iso = d.iso := rfl
@[simp] theorem pokeBit_paused (d : Dev) (a i : Nat) (b : Bool) : (pokeBit d a i b).paused = d.paused := rfl
@[simp] theorem pokeBit_stopped (d : Dev) (a i : Nat) (b : Bool) : (pokeBit d a i b).stopped = d.stopped := rfl
@[simp] theorem pokeBit_refLines (d : Dev) (a i : Nat) (b : Bool) : (pokeBit d a i b).refLines = d.refLines := rfl
@[simp] theorem pokeBit_time (d : Dev) (a i : Nat) (b : Bool) : (pokeBit d a i b).time = d.time := rfl
@[simp] theorem pokeBit_bin (d : Dev) (a i : Nat) (b : Bool) : (pokeBit d a i b).bin = d.bin := rfl
@[simp] theorem pokeBit_border (d : Dev) (a i : Nat) (b : Bool) : (pokeBit d a i b).border = d.border := rfl
@[simp] theorem pokeBit_hif (d : Dev) (a i : Nat) (b : Bool) : (pokeBit d a i b).hif = d.hif := rfl
@[simp] theorem pokeBit_jobs (d : Dev) (a i : Nat) (b : Bool) : (pokeBit d a i b).jobs = d.jobs := rfl
@[simp] theorem pokeBit_jobq (d : Dev) (a i : Nat) (b : Bool) : (pokeBit d a i b).jobq = d.jobq := rfl
@[simp] theorem pokeBit_lpxch (d : Dev) (a i : Nat) (b : Bool) : (pokeBit d a i b).lpxch = d.lpxch := rfl
@[simp] theorem pokeBit_ethUp (d : Dev) (a i : Nat) (b : Bool) : (pokeBit d a i b).ethUp = d.ethUp := rfl
@[simp] theorem pokeBit_fab (d : Dev) (a i : Nat) (b : Bool) : (pokeBit d a i b).fab = d.fab := rfl
@[simp] theorem pokeBit_node (d : Dev) (a i : Nat) (b : Bool) : (pokeBit d a i b).node = d.node := rfl
@[simp] theorem pokeBit_img (d : Dev) (a i : Nat) (b : Bool) : (pokeBit d a i b).img = d.img := rfl
@[simp] theorem pokeBit_restart (d : Dev) (a i : Nat) (b : Bool) : (pokeBit d a i b).restart = d.restart := rfl
@[simp] theorem pokeBit_life (d : Dev) (a i : Nat) (b : Bool) : (pokeBit d a i b).life = d.life := rfl
@[simp] theorem pokeBit_ptp (d : Dev) (a i : Nat) (b : Bool) : (pokeBit d a i b).ptp = d.ptp := rfl
@[simp] theorem pokeBit_pair (d : Dev) (a i : Nat) (b : Bool) : (pokeBit d a i b).pair = d.pair := rfl
@[simp] theorem pokeBit_wkr (d : Dev) (a i : Nat) (b : Bool) : (pokeBit d a i b).wkr = d.wkr := rfl
@[simp] theorem pokeBit_intc (d : Dev) (a i : Nat) (b : Bool) : (pokeBit d a i b).intc = d.intc := rfl
@[simp] theorem pokeBit_pwr (d : Dev) (a i : Nat) (b : Bool) : (pokeBit d a i b).pwr = d.pwr := rfl
@[simp] theorem pokeBit_therm (d : Dev) (a i : Nat) (b : Bool) : (pokeBit d a i b).therm = d.therm := rfl
@[simp] theorem pokeBit_health (d : Dev) (a i : Nat) (b : Bool) : (pokeBit d a i b).health = d.health := rfl
@[simp] theorem pokeBit_upd (d : Dev) (a i : Nat) (b : Bool) : (pokeBit d a i b).upd = d.upd := rfl

/-! ### countBy -/

@[simp] theorem countBy_cycle (d : Dev) (a hi lo n : Nat) : (countBy d a hi lo n).cycle = d.cycle := rfl
@[simp] theorem countBy_force (d : Dev) (a hi lo n : Nat) : (countBy d a hi lo n).force = d.force := rfl
@[simp] theorem countBy_latch (d : Dev) (a hi lo n : Nat) : (countBy d a hi lo n).latch = d.latch := rfl
@[simp] theorem countBy_ver (d : Dev) (a hi lo n : Nat) : (countBy d a hi lo n).ver = d.ver := rfl
@[simp] theorem countBy_past (d : Dev) (a hi lo n : Nat) : (countBy d a hi lo n).past = d.past := rfl
@[simp] theorem countBy_arming (d : Dev) (a hi lo n : Nat) : (countBy d a hi lo n).arming = d.arming := rfl
@[simp] theorem countBy_out (d : Dev) (a hi lo n : Nat) : (countBy d a hi lo n).out = d.out := rfl
@[simp] theorem countBy_errIn (d : Dev) (a hi lo n : Nat) : (countBy d a hi lo n).errIn = d.errIn := rfl
@[simp] theorem countBy_pos (d : Dev) (a hi lo n : Nat) : (countBy d a hi lo n).pos = d.pos := rfl
@[simp] theorem countBy_enc (d : Dev) (a hi lo n : Nat) : (countBy d a hi lo n).enc = d.enc := rfl
@[simp] theorem countBy_cmp (d : Dev) (a hi lo n : Nat) : (countBy d a hi lo n).cmp = d.cmp := rfl
@[simp] theorem countBy_trg (d : Dev) (a hi lo n : Nat) : (countBy d a hi lo n).trg = d.trg := rfl
@[simp] theorem countBy_skein (d : Dev) (a hi lo n : Nat) : (countBy d a hi lo n).skein = d.skein := rfl
@[simp] theorem countBy_wale (d : Dev) (a hi lo n : Nat) : (countBy d a hi lo n).wale = d.wale := rfl
@[simp] theorem countBy_stn (d : Dev) (a hi lo n : Nat) : (countBy d a hi lo n).stn = d.stn := rfl
@[simp] theorem countBy_seg (d : Dev) (a hi lo n : Nat) : (countBy d a hi lo n).seg = d.seg := rfl
@[simp] theorem countBy_rods (d : Dev) (a hi lo n : Nat) : (countBy d a hi lo n).rods = d.rods := rfl
@[simp] theorem countBy_trk (d : Dev) (a hi lo n : Nat) : (countBy d a hi lo n).trk = d.trk := rfl
@[simp] theorem countBy_qdrBad (d : Dev) (a hi lo n : Nat) : (countBy d a hi lo n).qdrBad = d.qdrBad := rfl
@[simp] theorem countBy_iso (d : Dev) (a hi lo n : Nat) : (countBy d a hi lo n).iso = d.iso := rfl
@[simp] theorem countBy_paused (d : Dev) (a hi lo n : Nat) : (countBy d a hi lo n).paused = d.paused := rfl
@[simp] theorem countBy_stopped (d : Dev) (a hi lo n : Nat) : (countBy d a hi lo n).stopped = d.stopped := rfl
@[simp] theorem countBy_refLines (d : Dev) (a hi lo n : Nat) : (countBy d a hi lo n).refLines = d.refLines := rfl
@[simp] theorem countBy_time (d : Dev) (a hi lo n : Nat) : (countBy d a hi lo n).time = d.time := rfl
@[simp] theorem countBy_bin (d : Dev) (a hi lo n : Nat) : (countBy d a hi lo n).bin = d.bin := rfl
@[simp] theorem countBy_border (d : Dev) (a hi lo n : Nat) : (countBy d a hi lo n).border = d.border := rfl
@[simp] theorem countBy_hif (d : Dev) (a hi lo n : Nat) : (countBy d a hi lo n).hif = d.hif := rfl
@[simp] theorem countBy_jobs (d : Dev) (a hi lo n : Nat) : (countBy d a hi lo n).jobs = d.jobs := rfl
@[simp] theorem countBy_jobq (d : Dev) (a hi lo n : Nat) : (countBy d a hi lo n).jobq = d.jobq := rfl
@[simp] theorem countBy_lpxch (d : Dev) (a hi lo n : Nat) : (countBy d a hi lo n).lpxch = d.lpxch := rfl
@[simp] theorem countBy_ethUp (d : Dev) (a hi lo n : Nat) : (countBy d a hi lo n).ethUp = d.ethUp := rfl
@[simp] theorem countBy_fab (d : Dev) (a hi lo n : Nat) : (countBy d a hi lo n).fab = d.fab := rfl
@[simp] theorem countBy_node (d : Dev) (a hi lo n : Nat) : (countBy d a hi lo n).node = d.node := rfl
@[simp] theorem countBy_img (d : Dev) (a hi lo n : Nat) : (countBy d a hi lo n).img = d.img := rfl
@[simp] theorem countBy_restart (d : Dev) (a hi lo n : Nat) : (countBy d a hi lo n).restart = d.restart := rfl
@[simp] theorem countBy_life (d : Dev) (a hi lo n : Nat) : (countBy d a hi lo n).life = d.life := rfl
@[simp] theorem countBy_ptp (d : Dev) (a hi lo n : Nat) : (countBy d a hi lo n).ptp = d.ptp := rfl
@[simp] theorem countBy_pair (d : Dev) (a hi lo n : Nat) : (countBy d a hi lo n).pair = d.pair := rfl
@[simp] theorem countBy_wkr (d : Dev) (a hi lo n : Nat) : (countBy d a hi lo n).wkr = d.wkr := rfl
@[simp] theorem countBy_intc (d : Dev) (a hi lo n : Nat) : (countBy d a hi lo n).intc = d.intc := rfl
@[simp] theorem countBy_pwr (d : Dev) (a hi lo n : Nat) : (countBy d a hi lo n).pwr = d.pwr := rfl
@[simp] theorem countBy_therm (d : Dev) (a hi lo n : Nat) : (countBy d a hi lo n).therm = d.therm := rfl
@[simp] theorem countBy_health (d : Dev) (a hi lo n : Nat) : (countBy d a hi lo n).health = d.health := rfl
@[simp] theorem countBy_upd (d : Dev) (a hi lo n : Nat) : (countBy d a hi lo n).upd = d.upd := rfl

/-! ### count -/

@[simp] theorem count_cycle (d : Dev) (a : Nat) : (count d a).cycle = d.cycle := rfl
@[simp] theorem count_force (d : Dev) (a : Nat) : (count d a).force = d.force := rfl
@[simp] theorem count_latch (d : Dev) (a : Nat) : (count d a).latch = d.latch := rfl
@[simp] theorem count_ver (d : Dev) (a : Nat) : (count d a).ver = d.ver := rfl
@[simp] theorem count_past (d : Dev) (a : Nat) : (count d a).past = d.past := rfl
@[simp] theorem count_arming (d : Dev) (a : Nat) : (count d a).arming = d.arming := rfl
@[simp] theorem count_out (d : Dev) (a : Nat) : (count d a).out = d.out := rfl
@[simp] theorem count_errIn (d : Dev) (a : Nat) : (count d a).errIn = d.errIn := rfl
@[simp] theorem count_pos (d : Dev) (a : Nat) : (count d a).pos = d.pos := rfl
@[simp] theorem count_enc (d : Dev) (a : Nat) : (count d a).enc = d.enc := rfl
@[simp] theorem count_cmp (d : Dev) (a : Nat) : (count d a).cmp = d.cmp := rfl
@[simp] theorem count_trg (d : Dev) (a : Nat) : (count d a).trg = d.trg := rfl
@[simp] theorem count_skein (d : Dev) (a : Nat) : (count d a).skein = d.skein := rfl
@[simp] theorem count_wale (d : Dev) (a : Nat) : (count d a).wale = d.wale := rfl
@[simp] theorem count_stn (d : Dev) (a : Nat) : (count d a).stn = d.stn := rfl
@[simp] theorem count_seg (d : Dev) (a : Nat) : (count d a).seg = d.seg := rfl
@[simp] theorem count_rods (d : Dev) (a : Nat) : (count d a).rods = d.rods := rfl
@[simp] theorem count_trk (d : Dev) (a : Nat) : (count d a).trk = d.trk := rfl
@[simp] theorem count_qdrBad (d : Dev) (a : Nat) : (count d a).qdrBad = d.qdrBad := rfl
@[simp] theorem count_iso (d : Dev) (a : Nat) : (count d a).iso = d.iso := rfl
@[simp] theorem count_paused (d : Dev) (a : Nat) : (count d a).paused = d.paused := rfl
@[simp] theorem count_stopped (d : Dev) (a : Nat) : (count d a).stopped = d.stopped := rfl
@[simp] theorem count_refLines (d : Dev) (a : Nat) : (count d a).refLines = d.refLines := rfl
@[simp] theorem count_time (d : Dev) (a : Nat) : (count d a).time = d.time := rfl
@[simp] theorem count_bin (d : Dev) (a : Nat) : (count d a).bin = d.bin := rfl
@[simp] theorem count_border (d : Dev) (a : Nat) : (count d a).border = d.border := rfl
@[simp] theorem count_hif (d : Dev) (a : Nat) : (count d a).hif = d.hif := rfl
@[simp] theorem count_jobs (d : Dev) (a : Nat) : (count d a).jobs = d.jobs := rfl
@[simp] theorem count_jobq (d : Dev) (a : Nat) : (count d a).jobq = d.jobq := rfl
@[simp] theorem count_lpxch (d : Dev) (a : Nat) : (count d a).lpxch = d.lpxch := rfl
@[simp] theorem count_ethUp (d : Dev) (a : Nat) : (count d a).ethUp = d.ethUp := rfl
@[simp] theorem count_fab (d : Dev) (a : Nat) : (count d a).fab = d.fab := rfl
@[simp] theorem count_node (d : Dev) (a : Nat) : (count d a).node = d.node := rfl
@[simp] theorem count_img (d : Dev) (a : Nat) : (count d a).img = d.img := rfl
@[simp] theorem count_restart (d : Dev) (a : Nat) : (count d a).restart = d.restart := rfl
@[simp] theorem count_life (d : Dev) (a : Nat) : (count d a).life = d.life := rfl
@[simp] theorem count_ptp (d : Dev) (a : Nat) : (count d a).ptp = d.ptp := rfl
@[simp] theorem count_pair (d : Dev) (a : Nat) : (count d a).pair = d.pair := rfl
@[simp] theorem count_wkr (d : Dev) (a : Nat) : (count d a).wkr = d.wkr := rfl
@[simp] theorem count_intc (d : Dev) (a : Nat) : (count d a).intc = d.intc := rfl
@[simp] theorem count_pwr (d : Dev) (a : Nat) : (count d a).pwr = d.pwr := rfl
@[simp] theorem count_therm (d : Dev) (a : Nat) : (count d a).therm = d.therm := rfl
@[simp] theorem count_health (d : Dev) (a : Nat) : (count d a).health = d.health := rfl
@[simp] theorem count_upd (d : Dev) (a : Nat) : (count d a).upd = d.upd := rfl

/-! ### firePulse -/

@[simp] theorem firePulse_cycle (d : Dev) (c : Nat) : (firePulse d c).cycle = d.cycle := rfl
@[simp] theorem firePulse_regs (d : Dev) (c : Nat) : (firePulse d c).regs = d.regs := rfl
@[simp] theorem firePulse_force (d : Dev) (c : Nat) : (firePulse d c).force = d.force := rfl
@[simp] theorem firePulse_latch (d : Dev) (c : Nat) : (firePulse d c).latch = d.latch := rfl
@[simp] theorem firePulse_ver (d : Dev) (c : Nat) : (firePulse d c).ver = d.ver := rfl
@[simp] theorem firePulse_past (d : Dev) (c : Nat) : (firePulse d c).past = d.past := rfl
@[simp] theorem firePulse_arming (d : Dev) (c : Nat) : (firePulse d c).arming = d.arming := rfl
@[simp] theorem firePulse_errIn (d : Dev) (c : Nat) : (firePulse d c).errIn = d.errIn := rfl
@[simp] theorem firePulse_pos (d : Dev) (c : Nat) : (firePulse d c).pos = d.pos := rfl
@[simp] theorem firePulse_enc (d : Dev) (c : Nat) : (firePulse d c).enc = d.enc := rfl
@[simp] theorem firePulse_cmp (d : Dev) (c : Nat) : (firePulse d c).cmp = d.cmp := rfl
@[simp] theorem firePulse_trg (d : Dev) (c : Nat) : (firePulse d c).trg = d.trg := rfl
@[simp] theorem firePulse_skein (d : Dev) (c : Nat) : (firePulse d c).skein = d.skein := rfl
@[simp] theorem firePulse_wale (d : Dev) (c : Nat) : (firePulse d c).wale = d.wale := rfl
@[simp] theorem firePulse_stn (d : Dev) (c : Nat) : (firePulse d c).stn = d.stn := rfl
@[simp] theorem firePulse_seg (d : Dev) (c : Nat) : (firePulse d c).seg = d.seg := rfl
@[simp] theorem firePulse_rods (d : Dev) (c : Nat) : (firePulse d c).rods = d.rods := rfl
@[simp] theorem firePulse_trk (d : Dev) (c : Nat) : (firePulse d c).trk = d.trk := rfl
@[simp] theorem firePulse_qdrBad (d : Dev) (c : Nat) : (firePulse d c).qdrBad = d.qdrBad := rfl
@[simp] theorem firePulse_iso (d : Dev) (c : Nat) : (firePulse d c).iso = d.iso := rfl
@[simp] theorem firePulse_paused (d : Dev) (c : Nat) : (firePulse d c).paused = d.paused := rfl
@[simp] theorem firePulse_stopped (d : Dev) (c : Nat) : (firePulse d c).stopped = d.stopped := rfl
@[simp] theorem firePulse_refLines (d : Dev) (c : Nat) : (firePulse d c).refLines = d.refLines := rfl
@[simp] theorem firePulse_time (d : Dev) (c : Nat) : (firePulse d c).time = d.time := rfl
@[simp] theorem firePulse_bin (d : Dev) (c : Nat) : (firePulse d c).bin = d.bin := rfl
@[simp] theorem firePulse_border (d : Dev) (c : Nat) : (firePulse d c).border = d.border := rfl
@[simp] theorem firePulse_hif (d : Dev) (c : Nat) : (firePulse d c).hif = d.hif := rfl
@[simp] theorem firePulse_jobs (d : Dev) (c : Nat) : (firePulse d c).jobs = d.jobs := rfl
@[simp] theorem firePulse_jobq (d : Dev) (c : Nat) : (firePulse d c).jobq = d.jobq := rfl
@[simp] theorem firePulse_lpxch (d : Dev) (c : Nat) : (firePulse d c).lpxch = d.lpxch := rfl
@[simp] theorem firePulse_ethUp (d : Dev) (c : Nat) : (firePulse d c).ethUp = d.ethUp := rfl
@[simp] theorem firePulse_fab (d : Dev) (c : Nat) : (firePulse d c).fab = d.fab := rfl
@[simp] theorem firePulse_node (d : Dev) (c : Nat) : (firePulse d c).node = d.node := rfl
@[simp] theorem firePulse_img (d : Dev) (c : Nat) : (firePulse d c).img = d.img := rfl
@[simp] theorem firePulse_restart (d : Dev) (c : Nat) : (firePulse d c).restart = d.restart := rfl
@[simp] theorem firePulse_life (d : Dev) (c : Nat) : (firePulse d c).life = d.life := rfl
@[simp] theorem firePulse_ptp (d : Dev) (c : Nat) : (firePulse d c).ptp = d.ptp := rfl
@[simp] theorem firePulse_pair (d : Dev) (c : Nat) : (firePulse d c).pair = d.pair := rfl
@[simp] theorem firePulse_intc (d : Dev) (c : Nat) : (firePulse d c).intc = d.intc := rfl
@[simp] theorem firePulse_pwr (d : Dev) (c : Nat) : (firePulse d c).pwr = d.pwr := rfl
@[simp] theorem firePulse_therm (d : Dev) (c : Nat) : (firePulse d c).therm = d.therm := rfl
@[simp] theorem firePulse_health (d : Dev) (c : Nat) : (firePulse d c).health = d.health := rfl
@[simp] theorem firePulse_upd (d : Dev) (c : Nat) : (firePulse d c).upd = d.upd := rfl

/-! ### evt -/

/-- Everything an event can change. -/
theorem evt_shape (d : Dev) (pg b : Nat) : ∃ r w o, evt d pg b = { d with regs := r, wkr := w, out := o } := by
  unfold evt
  dsimp only
  split
  · split
    · exact ⟨_, _, _, rfl⟩
    · exact ⟨_, _, _, rfl⟩
  · exact ⟨_, _, _, rfl⟩

@[simp] theorem evt_cycle (d : Dev) (pg b : Nat) : (evt d pg b).cycle = d.cycle := by
  obtain ⟨_, _, _, h⟩ := evt_shape d pg b; rw [h]
@[simp] theorem evt_force (d : Dev) (pg b : Nat) : (evt d pg b).force = d.force := by
  obtain ⟨_, _, _, h⟩ := evt_shape d pg b; rw [h]
@[simp] theorem evt_latch (d : Dev) (pg b : Nat) : (evt d pg b).latch = d.latch := by
  obtain ⟨_, _, _, h⟩ := evt_shape d pg b; rw [h]
@[simp] theorem evt_ver (d : Dev) (pg b : Nat) : (evt d pg b).ver = d.ver := by
  obtain ⟨_, _, _, h⟩ := evt_shape d pg b; rw [h]
@[simp] theorem evt_past (d : Dev) (pg b : Nat) : (evt d pg b).past = d.past := by
  obtain ⟨_, _, _, h⟩ := evt_shape d pg b; rw [h]
@[simp] theorem evt_arming (d : Dev) (pg b : Nat) : (evt d pg b).arming = d.arming := by
  obtain ⟨_, _, _, h⟩ := evt_shape d pg b; rw [h]
@[simp] theorem evt_errIn (d : Dev) (pg b : Nat) : (evt d pg b).errIn = d.errIn := by
  obtain ⟨_, _, _, h⟩ := evt_shape d pg b; rw [h]
@[simp] theorem evt_pos (d : Dev) (pg b : Nat) : (evt d pg b).pos = d.pos := by
  obtain ⟨_, _, _, h⟩ := evt_shape d pg b; rw [h]
@[simp] theorem evt_enc (d : Dev) (pg b : Nat) : (evt d pg b).enc = d.enc := by
  obtain ⟨_, _, _, h⟩ := evt_shape d pg b; rw [h]
@[simp] theorem evt_cmp (d : Dev) (pg b : Nat) : (evt d pg b).cmp = d.cmp := by
  obtain ⟨_, _, _, h⟩ := evt_shape d pg b; rw [h]
@[simp] theorem evt_trg (d : Dev) (pg b : Nat) : (evt d pg b).trg = d.trg := by
  obtain ⟨_, _, _, h⟩ := evt_shape d pg b; rw [h]
@[simp] theorem evt_skein (d : Dev) (pg b : Nat) : (evt d pg b).skein = d.skein := by
  obtain ⟨_, _, _, h⟩ := evt_shape d pg b; rw [h]
@[simp] theorem evt_wale (d : Dev) (pg b : Nat) : (evt d pg b).wale = d.wale := by
  obtain ⟨_, _, _, h⟩ := evt_shape d pg b; rw [h]
@[simp] theorem evt_stn (d : Dev) (pg b : Nat) : (evt d pg b).stn = d.stn := by
  obtain ⟨_, _, _, h⟩ := evt_shape d pg b; rw [h]
@[simp] theorem evt_seg (d : Dev) (pg b : Nat) : (evt d pg b).seg = d.seg := by
  obtain ⟨_, _, _, h⟩ := evt_shape d pg b; rw [h]
@[simp] theorem evt_rods (d : Dev) (pg b : Nat) : (evt d pg b).rods = d.rods := by
  obtain ⟨_, _, _, h⟩ := evt_shape d pg b; rw [h]
@[simp] theorem evt_trk (d : Dev) (pg b : Nat) : (evt d pg b).trk = d.trk := by
  obtain ⟨_, _, _, h⟩ := evt_shape d pg b; rw [h]
@[simp] theorem evt_qdrBad (d : Dev) (pg b : Nat) : (evt d pg b).qdrBad = d.qdrBad := by
  obtain ⟨_, _, _, h⟩ := evt_shape d pg b; rw [h]
@[simp] theorem evt_iso (d : Dev) (pg b : Nat) : (evt d pg b).iso = d.iso := by
  obtain ⟨_, _, _, h⟩ := evt_shape d pg b; rw [h]
@[simp] theorem evt_paused (d : Dev) (pg b : Nat) : (evt d pg b).paused = d.paused := by
  obtain ⟨_, _, _, h⟩ := evt_shape d pg b; rw [h]
@[simp] theorem evt_stopped (d : Dev) (pg b : Nat) : (evt d pg b).stopped = d.stopped := by
  obtain ⟨_, _, _, h⟩ := evt_shape d pg b; rw [h]
@[simp] theorem evt_refLines (d : Dev) (pg b : Nat) : (evt d pg b).refLines = d.refLines := by
  obtain ⟨_, _, _, h⟩ := evt_shape d pg b; rw [h]
@[simp] theorem evt_time (d : Dev) (pg b : Nat) : (evt d pg b).time = d.time := by
  obtain ⟨_, _, _, h⟩ := evt_shape d pg b; rw [h]
@[simp] theorem evt_bin (d : Dev) (pg b : Nat) : (evt d pg b).bin = d.bin := by
  obtain ⟨_, _, _, h⟩ := evt_shape d pg b; rw [h]
@[simp] theorem evt_border (d : Dev) (pg b : Nat) : (evt d pg b).border = d.border := by
  obtain ⟨_, _, _, h⟩ := evt_shape d pg b; rw [h]
@[simp] theorem evt_hif (d : Dev) (pg b : Nat) : (evt d pg b).hif = d.hif := by
  obtain ⟨_, _, _, h⟩ := evt_shape d pg b; rw [h]
@[simp] theorem evt_jobs (d : Dev) (pg b : Nat) : (evt d pg b).jobs = d.jobs := by
  obtain ⟨_, _, _, h⟩ := evt_shape d pg b; rw [h]
@[simp] theorem evt_jobq (d : Dev) (pg b : Nat) : (evt d pg b).jobq = d.jobq := by
  obtain ⟨_, _, _, h⟩ := evt_shape d pg b; rw [h]
@[simp] theorem evt_lpxch (d : Dev) (pg b : Nat) : (evt d pg b).lpxch = d.lpxch := by
  obtain ⟨_, _, _, h⟩ := evt_shape d pg b; rw [h]
@[simp] theorem evt_ethUp (d : Dev) (pg b : Nat) : (evt d pg b).ethUp = d.ethUp := by
  obtain ⟨_, _, _, h⟩ := evt_shape d pg b; rw [h]
@[simp] theorem evt_fab (d : Dev) (pg b : Nat) : (evt d pg b).fab = d.fab := by
  obtain ⟨_, _, _, h⟩ := evt_shape d pg b; rw [h]
@[simp] theorem evt_node (d : Dev) (pg b : Nat) : (evt d pg b).node = d.node := by
  obtain ⟨_, _, _, h⟩ := evt_shape d pg b; rw [h]
@[simp] theorem evt_img (d : Dev) (pg b : Nat) : (evt d pg b).img = d.img := by
  obtain ⟨_, _, _, h⟩ := evt_shape d pg b; rw [h]
@[simp] theorem evt_restart (d : Dev) (pg b : Nat) : (evt d pg b).restart = d.restart := by
  obtain ⟨_, _, _, h⟩ := evt_shape d pg b; rw [h]
@[simp] theorem evt_life (d : Dev) (pg b : Nat) : (evt d pg b).life = d.life := by
  obtain ⟨_, _, _, h⟩ := evt_shape d pg b; rw [h]
@[simp] theorem evt_ptp (d : Dev) (pg b : Nat) : (evt d pg b).ptp = d.ptp := by
  obtain ⟨_, _, _, h⟩ := evt_shape d pg b; rw [h]
@[simp] theorem evt_pair (d : Dev) (pg b : Nat) : (evt d pg b).pair = d.pair := by
  obtain ⟨_, _, _, h⟩ := evt_shape d pg b; rw [h]
@[simp] theorem evt_intc (d : Dev) (pg b : Nat) : (evt d pg b).intc = d.intc := by
  obtain ⟨_, _, _, h⟩ := evt_shape d pg b; rw [h]
@[simp] theorem evt_pwr (d : Dev) (pg b : Nat) : (evt d pg b).pwr = d.pwr := by
  obtain ⟨_, _, _, h⟩ := evt_shape d pg b; rw [h]
@[simp] theorem evt_therm (d : Dev) (pg b : Nat) : (evt d pg b).therm = d.therm := by
  obtain ⟨_, _, _, h⟩ := evt_shape d pg b; rw [h]
@[simp] theorem evt_health (d : Dev) (pg b : Nat) : (evt d pg b).health = d.health := by
  obtain ⟨_, _, _, h⟩ := evt_shape d pg b; rw [h]
@[simp] theorem evt_upd (d : Dev) (pg b : Nat) : (evt d pg b).upd = d.upd := by
  obtain ⟨_, _, _, h⟩ := evt_shape d pg b; rw [h]

/-! ### raise -/

/-- Everything a raised error can change. -/
theorem raise_shape (d : Dev) (pg code sev level detail : Nat) :
    ∃ r e, raise d pg code sev level detail = { d with regs := r, errIn := e } := by
  unfold raise
  dsimp only
  split
  · exact ⟨_, _, rfl⟩
  · exact ⟨_, _, rfl⟩

@[simp] theorem raise_cycle (d : Dev) (pg code sev level detail : Nat) : (raise d pg code sev level detail).cycle = d.cycle := by
  obtain ⟨_, _, h⟩ := raise_shape d pg code sev level detail; rw [h]
@[simp] theorem raise_force (d : Dev) (pg code sev level detail : Nat) : (raise d pg code sev level detail).force = d.force := by
  obtain ⟨_, _, h⟩ := raise_shape d pg code sev level detail; rw [h]
@[simp] theorem raise_latch (d : Dev) (pg code sev level detail : Nat) : (raise d pg code sev level detail).latch = d.latch := by
  obtain ⟨_, _, h⟩ := raise_shape d pg code sev level detail; rw [h]
@[simp] theorem raise_ver (d : Dev) (pg code sev level detail : Nat) : (raise d pg code sev level detail).ver = d.ver := by
  obtain ⟨_, _, h⟩ := raise_shape d pg code sev level detail; rw [h]
@[simp] theorem raise_past (d : Dev) (pg code sev level detail : Nat) : (raise d pg code sev level detail).past = d.past := by
  obtain ⟨_, _, h⟩ := raise_shape d pg code sev level detail; rw [h]
@[simp] theorem raise_arming (d : Dev) (pg code sev level detail : Nat) : (raise d pg code sev level detail).arming = d.arming := by
  obtain ⟨_, _, h⟩ := raise_shape d pg code sev level detail; rw [h]
@[simp] theorem raise_out (d : Dev) (pg code sev level detail : Nat) : (raise d pg code sev level detail).out = d.out := by
  obtain ⟨_, _, h⟩ := raise_shape d pg code sev level detail; rw [h]
@[simp] theorem raise_pos (d : Dev) (pg code sev level detail : Nat) : (raise d pg code sev level detail).pos = d.pos := by
  obtain ⟨_, _, h⟩ := raise_shape d pg code sev level detail; rw [h]
@[simp] theorem raise_enc (d : Dev) (pg code sev level detail : Nat) : (raise d pg code sev level detail).enc = d.enc := by
  obtain ⟨_, _, h⟩ := raise_shape d pg code sev level detail; rw [h]
@[simp] theorem raise_cmp (d : Dev) (pg code sev level detail : Nat) : (raise d pg code sev level detail).cmp = d.cmp := by
  obtain ⟨_, _, h⟩ := raise_shape d pg code sev level detail; rw [h]
@[simp] theorem raise_trg (d : Dev) (pg code sev level detail : Nat) : (raise d pg code sev level detail).trg = d.trg := by
  obtain ⟨_, _, h⟩ := raise_shape d pg code sev level detail; rw [h]
@[simp] theorem raise_skein (d : Dev) (pg code sev level detail : Nat) : (raise d pg code sev level detail).skein = d.skein := by
  obtain ⟨_, _, h⟩ := raise_shape d pg code sev level detail; rw [h]
@[simp] theorem raise_wale (d : Dev) (pg code sev level detail : Nat) : (raise d pg code sev level detail).wale = d.wale := by
  obtain ⟨_, _, h⟩ := raise_shape d pg code sev level detail; rw [h]
@[simp] theorem raise_stn (d : Dev) (pg code sev level detail : Nat) : (raise d pg code sev level detail).stn = d.stn := by
  obtain ⟨_, _, h⟩ := raise_shape d pg code sev level detail; rw [h]
@[simp] theorem raise_seg (d : Dev) (pg code sev level detail : Nat) : (raise d pg code sev level detail).seg = d.seg := by
  obtain ⟨_, _, h⟩ := raise_shape d pg code sev level detail; rw [h]
@[simp] theorem raise_rods (d : Dev) (pg code sev level detail : Nat) : (raise d pg code sev level detail).rods = d.rods := by
  obtain ⟨_, _, h⟩ := raise_shape d pg code sev level detail; rw [h]
@[simp] theorem raise_trk (d : Dev) (pg code sev level detail : Nat) : (raise d pg code sev level detail).trk = d.trk := by
  obtain ⟨_, _, h⟩ := raise_shape d pg code sev level detail; rw [h]
@[simp] theorem raise_qdrBad (d : Dev) (pg code sev level detail : Nat) : (raise d pg code sev level detail).qdrBad = d.qdrBad := by
  obtain ⟨_, _, h⟩ := raise_shape d pg code sev level detail; rw [h]
@[simp] theorem raise_iso (d : Dev) (pg code sev level detail : Nat) : (raise d pg code sev level detail).iso = d.iso := by
  obtain ⟨_, _, h⟩ := raise_shape d pg code sev level detail; rw [h]
@[simp] theorem raise_paused (d : Dev) (pg code sev level detail : Nat) : (raise d pg code sev level detail).paused = d.paused := by
  obtain ⟨_, _, h⟩ := raise_shape d pg code sev level detail; rw [h]
@[simp] theorem raise_stopped (d : Dev) (pg code sev level detail : Nat) : (raise d pg code sev level detail).stopped = d.stopped := by
  obtain ⟨_, _, h⟩ := raise_shape d pg code sev level detail; rw [h]
@[simp] theorem raise_refLines (d : Dev) (pg code sev level detail : Nat) : (raise d pg code sev level detail).refLines = d.refLines := by
  obtain ⟨_, _, h⟩ := raise_shape d pg code sev level detail; rw [h]
@[simp] theorem raise_time (d : Dev) (pg code sev level detail : Nat) : (raise d pg code sev level detail).time = d.time := by
  obtain ⟨_, _, h⟩ := raise_shape d pg code sev level detail; rw [h]
@[simp] theorem raise_bin (d : Dev) (pg code sev level detail : Nat) : (raise d pg code sev level detail).bin = d.bin := by
  obtain ⟨_, _, h⟩ := raise_shape d pg code sev level detail; rw [h]
@[simp] theorem raise_border (d : Dev) (pg code sev level detail : Nat) : (raise d pg code sev level detail).border = d.border := by
  obtain ⟨_, _, h⟩ := raise_shape d pg code sev level detail; rw [h]
@[simp] theorem raise_hif (d : Dev) (pg code sev level detail : Nat) : (raise d pg code sev level detail).hif = d.hif := by
  obtain ⟨_, _, h⟩ := raise_shape d pg code sev level detail; rw [h]
@[simp] theorem raise_jobs (d : Dev) (pg code sev level detail : Nat) : (raise d pg code sev level detail).jobs = d.jobs := by
  obtain ⟨_, _, h⟩ := raise_shape d pg code sev level detail; rw [h]
@[simp] theorem raise_jobq (d : Dev) (pg code sev level detail : Nat) : (raise d pg code sev level detail).jobq = d.jobq := by
  obtain ⟨_, _, h⟩ := raise_shape d pg code sev level detail; rw [h]
@[simp] theorem raise_lpxch (d : Dev) (pg code sev level detail : Nat) : (raise d pg code sev level detail).lpxch = d.lpxch := by
  obtain ⟨_, _, h⟩ := raise_shape d pg code sev level detail; rw [h]
@[simp] theorem raise_ethUp (d : Dev) (pg code sev level detail : Nat) : (raise d pg code sev level detail).ethUp = d.ethUp := by
  obtain ⟨_, _, h⟩ := raise_shape d pg code sev level detail; rw [h]
@[simp] theorem raise_fab (d : Dev) (pg code sev level detail : Nat) : (raise d pg code sev level detail).fab = d.fab := by
  obtain ⟨_, _, h⟩ := raise_shape d pg code sev level detail; rw [h]
@[simp] theorem raise_node (d : Dev) (pg code sev level detail : Nat) : (raise d pg code sev level detail).node = d.node := by
  obtain ⟨_, _, h⟩ := raise_shape d pg code sev level detail; rw [h]
@[simp] theorem raise_img (d : Dev) (pg code sev level detail : Nat) : (raise d pg code sev level detail).img = d.img := by
  obtain ⟨_, _, h⟩ := raise_shape d pg code sev level detail; rw [h]
@[simp] theorem raise_restart (d : Dev) (pg code sev level detail : Nat) : (raise d pg code sev level detail).restart = d.restart := by
  obtain ⟨_, _, h⟩ := raise_shape d pg code sev level detail; rw [h]
@[simp] theorem raise_life (d : Dev) (pg code sev level detail : Nat) : (raise d pg code sev level detail).life = d.life := by
  obtain ⟨_, _, h⟩ := raise_shape d pg code sev level detail; rw [h]
@[simp] theorem raise_ptp (d : Dev) (pg code sev level detail : Nat) : (raise d pg code sev level detail).ptp = d.ptp := by
  obtain ⟨_, _, h⟩ := raise_shape d pg code sev level detail; rw [h]
@[simp] theorem raise_pair (d : Dev) (pg code sev level detail : Nat) : (raise d pg code sev level detail).pair = d.pair := by
  obtain ⟨_, _, h⟩ := raise_shape d pg code sev level detail; rw [h]
@[simp] theorem raise_wkr (d : Dev) (pg code sev level detail : Nat) : (raise d pg code sev level detail).wkr = d.wkr := by
  obtain ⟨_, _, h⟩ := raise_shape d pg code sev level detail; rw [h]
@[simp] theorem raise_intc (d : Dev) (pg code sev level detail : Nat) : (raise d pg code sev level detail).intc = d.intc := by
  obtain ⟨_, _, h⟩ := raise_shape d pg code sev level detail; rw [h]
@[simp] theorem raise_pwr (d : Dev) (pg code sev level detail : Nat) : (raise d pg code sev level detail).pwr = d.pwr := by
  obtain ⟨_, _, h⟩ := raise_shape d pg code sev level detail; rw [h]
@[simp] theorem raise_therm (d : Dev) (pg code sev level detail : Nat) : (raise d pg code sev level detail).therm = d.therm := by
  obtain ⟨_, _, h⟩ := raise_shape d pg code sev level detail; rw [h]
@[simp] theorem raise_health (d : Dev) (pg code sev level detail : Nat) : (raise d pg code sev level detail).health = d.health := by
  obtain ⟨_, _, h⟩ := raise_shape d pg code sev level detail; rw [h]
@[simp] theorem raise_upd (d : Dev) (pg code sev level detail : Nat) : (raise d pg code sev level detail).upd = d.upd := by
  obtain ⟨_, _, h⟩ := raise_shape d pg code sev level detail; rw [h]

end Sys2Proof.Machine
end

