-- ==== Sys2Proof/Laws/Table.lean ====
section
/-!
SUPPORT. Laws of the sparse tables: what a read gives after a write, and that every operation keeps the canonical
form, so that equal tables are equal data.
-/

namespace Sys2Proof.Machine

theorem tget_tdel {α : Type} (d : Nat → α) (t : Tbl α) (k j : Nat) :
    tget d (tdel t k) j = if j = k then d k else tget d t j := by
  induction t with
  | nil => by_cases h : j = k <;> simp [tdel, tget, h]
  | cons e r ih =>
    obtain ⟨k', v⟩ := e
    unfold tdel
    by_cases h1 : k = k'
    · subst h1
      simp only [if_true, ih, tget]
      by_cases h : j = k <;> simp [h]
    · by_cases h2 : j = k'
      · subst h2
        simp [h1, tget, Ne.symm h1]
      · simp [h1, h2, tget, ih]

theorem tget_tins {α : Type} (d : Nat → α) (t : Tbl α) (k j : Nat) (v : α) :
    tget d (tins t k v) j = if j = k then v else tget d t j := by
  induction t with
  | nil => simp [tins, tget]
  | cons e r ih =>
    obtain ⟨k', v'⟩ := e
    unfold tins
    split
    · simp [tget]
    · split
      · subst_vars; simp only [tget]; split <;> rfl
      · simp only [tget, ih]
        by_cases h1 : j = k' <;> by_cases h2 : j = k <;> simp_all

/-- Below its first key a canonical table reads as its default. -/
theorem tget_below {α : Type} [DecidableEq α] (d : Nat → α) (t : Tbl α) (lo k : Nat) (h : twfFrom d lo t = true) (hk : k < lo) :
    tget d t k = d k := by
  induction t generalizing lo with
  | nil => rfl
  | cons e r ih =>
    obtain ⟨k', v⟩ := e
    simp only [twfFrom, Bool.and_eq_true, decide_eq_true_eq] at h
    have hne : k ≠ k' := by omega
    simp only [tget, hne, if_false]
    exact ih (k' + 1) h.2 (by omega)

/-- A read after a write: the written key reads as the value, every other key as before. -/
theorem tget_tput {α : Type} [DecidableEq α] (d : Nat → α) (t : Tbl α) (k j : Nat) (v : α) :
    tget d (tput d t k v) j = if j = k then v else tget d t j := by
  unfold tput
  split
  · rename_i hv
    rw [tget_tdel, hv]
  · exact tget_tins d t k j v

theorem twfFrom_mono {α : Type} [DecidableEq α] (d : Nat → α) (t : Tbl α) (lo lo' : Nat) (hle : lo' ≤ lo)
    (h : twfFrom d lo t = true) : twfFrom d lo' t = true := by
  cases t with
  | nil => rfl
  | cons e r =>
    obtain ⟨k, v⟩ := e
    simp only [twfFrom, Bool.and_eq_true, decide_eq_true_eq] at h ⊢
    exact ⟨⟨by omega, h.1.2⟩, h.2⟩

theorem twfFrom_tdel {α : Type} [DecidableEq α] (d : Nat → α) (t : Tbl α) (lo k : Nat) (h : twfFrom d lo t = true) :
    twfFrom d lo (tdel t k) = true := by
  induction t generalizing lo with
  | nil => rfl
  | cons e r ih =>
    obtain ⟨k', v⟩ := e
    simp only [twfFrom, Bool.and_eq_true, decide_eq_true_eq] at h
    unfold tdel
    split
    · exact twfFrom_mono d _ (k' + 1) lo (by omega) (ih (k' + 1) h.2)
    · simp only [twfFrom, Bool.and_eq_true, decide_eq_true_eq]
      exact ⟨h.1, ih (k' + 1) h.2⟩

theorem twfFrom_tins {α : Type} [DecidableEq α] (d : Nat → α) (t : Tbl α) (lo k : Nat) (v : α) (hk : lo ≤ k) (hv : v ≠ d k)
    (h : twfFrom d lo t = true) : twfFrom d lo (tins t k v) = true := by
  induction t generalizing lo with
  | nil => simp [tins, twfFrom, hk, hv]
  | cons e r ih =>
    obtain ⟨k', v'⟩ := e
    simp only [twfFrom, Bool.and_eq_true, decide_eq_true_eq] at h
    unfold tins
    split
    · simp only [twfFrom, Bool.and_eq_true, decide_eq_true_eq]
      exact ⟨⟨hk, hv⟩, ⟨⟨by omega, h.1.2⟩, h.2⟩⟩
    · split
      · rename_i e; subst e
        simp only [twfFrom, Bool.and_eq_true, decide_eq_true_eq]
        exact ⟨⟨hk, hv⟩, h.2⟩
      · simp only [twfFrom, Bool.and_eq_true, decide_eq_true_eq]
        exact ⟨h.1, ih (k' + 1) (by omega) h.2⟩

/-- A write keeps the canonical form. -/
theorem twf_tput {α : Type} [DecidableEq α] (d : Nat → α) (t : Tbl α) (k : Nat) (v : α) (h : twf d t = true) :
    twf d (tput d t k v) = true := by
  unfold tput
  split
  · exact twfFrom_tdel d t 0 k h
  · exact twfFrom_tins d t 0 k v (Nat.zero_le k) (by assumption) h

/-- A write of several bytes keeps the canonical form. -/
theorem twf_mwrite (d : Nat → Byte) (bs : List Byte) (t : Tbl Byte) (a : Nat) (h : twf d t = true) :
    twf d (mwrite d t a bs) = true := by
  induction bs generalizing t a with
  | nil => exact h
  | cons b bs ih => exact ih (tput d t a b) (a + 1) (twf_tput d t a b h)

/-- A write of several bytes leaves every address outside it as it was. -/
theorem tget_mwrite_out (d : Nat → Byte) (bs : List Byte) (t : Tbl Byte) (a j : Nat) (h : j < a ∨ a + bs.length ≤ j) :
    tget d (mwrite d t a bs) j = tget d t j := by
  induction bs generalizing t a with
  | nil => rfl
  | cons b bs ih =>
    simp only [List.length_cons] at h
    simp only [mwrite]
    rw [ih (tput d t a b) (a + 1) (by omega), tget_tput, if_neg (by omega)]

/-- Inside a write of several bytes each address reads as the byte written to it. -/
theorem tget_mwrite_in (d : Nat → Byte) (bs : List Byte) (t : Tbl Byte) (a i : Nat) (hi : i < bs.length) :
    tget d (mwrite d t a bs) (a + i) = bs.getD i 0 := by
  induction bs generalizing t a i with
  | nil => simp at hi
  | cons b bs ih =>
    simp only [mwrite]
    cases i with
    | zero => rw [tget_mwrite_out d bs (tput d t a b) (a + 1) (a + 0) (by omega), Nat.add_zero, tget_tput]; simp
    | succ i =>
      have := ih (tput d t a b) (a + 1) i (by simpa using hi)
      rw [show a + (i + 1) = a + 1 + i by omega, this]
      simp

/-- Dropping entries keeps the canonical form. -/
theorem twfFrom_filter {α : Type} [DecidableEq α] (d : Nat → α) (p : Nat × α → Bool) (t : Tbl α) (lo : Nat)
    (h : twfFrom d lo t = true) : twfFrom d lo (t.filter p) = true := by
  induction t generalizing lo with
  | nil => rfl
  | cons e r ih =>
    obtain ⟨k, v⟩ := e
    simp only [twfFrom, Bool.and_eq_true, decide_eq_true_eq] at h
    rw [List.filter_cons]
    split
    · simp only [twfFrom, Bool.and_eq_true, decide_eq_true_eq]
      exact ⟨h.1, ih (k + 1) h.2⟩
    · exact twfFrom_mono d _ (k + 1) lo (by omega) (ih (k + 1) h.2)

/-- The canonical form depends only on what unlisted keys of the table's own entries read as. -/
theorem twfFrom_congr {α : Type} [DecidableEq α] (d e : Nat → α) (t : Tbl α) (lo : Nat) (hd : ∀ p ∈ t, d p.1 = e p.1)
    (h : twfFrom d lo t = true) : twfFrom e lo t = true := by
  induction t generalizing lo with
  | nil => rfl
  | cons p r ih =>
    obtain ⟨k, v⟩ := p
    simp only [twfFrom, Bool.and_eq_true, decide_eq_true_eq] at h ⊢
    have hk : d k = e k := hd (k, v) (by simp)
    exact ⟨⟨h.1.1, by rw [← hk]; exact h.1.2⟩, ih (k + 1) (fun p hp => hd p (by simp [hp])) h.2⟩

/-- Tables in canonical form that read alike are the same table. -/
theorem twfFrom_ext {α : Type} [DecidableEq α] (d : Nat → α) (t u : Tbl α) (lo : Nat) (ht : twfFrom d lo t = true)
    (hu : twfFrom d lo u = true) (h : ∀ k, tget d t k = tget d u k) : t = u := by
  induction t generalizing u lo with
  | nil =>
    cases u with
    | nil => rfl
    | cons p r =>
      obtain ⟨k, v⟩ := p
      simp only [twfFrom, Bool.and_eq_true, decide_eq_true_eq] at hu
      have := h k
      simp only [tget, if_true] at this
      exact absurd this.symm hu.1.2
  | cons p r ih =>
    obtain ⟨k, v⟩ := p
    simp only [twfFrom, Bool.and_eq_true, decide_eq_true_eq] at ht
    cases u with
    | nil =>
      have := h k
      simp only [tget, if_true] at this
      exact absurd this ht.1.2
    | cons q w =>
      obtain ⟨k', v'⟩ := q
      simp only [twfFrom, Bool.and_eq_true, decide_eq_true_eq] at hu
      have hk : k = k' := by
        rcases Nat.lt_trichotomy k k' with c | c | c
        · have e := h k
          simp only [tget, if_true, Nat.ne_of_lt c, if_false] at e
          rw [tget_below d w (k' + 1) k hu.2 (by omega)] at e
          exact absurd e ht.1.2
        · exact c
        · have e := h k'
          simp only [tget, if_true, Nat.ne_of_lt c, if_false] at e
          rw [tget_below d r (k + 1) k' ht.2 (by omega)] at e
          exact absurd e.symm hu.1.2
      subst hk
      have hv : v = v' := by
        have e := h k
        simpa [tget] using e
      subst hv
      congr 1
      refine ih w (k + 1) ht.2 hu.2 ?_
      intro j
      by_cases hj : j = k
      · subst hj
        rw [tget_below d r (j + 1) j ht.2 (by omega), tget_below d w (j + 1) j hu.2 (by omega)]
      · have e := h j
        simpa [tget, hj] using e

end Sys2Proof.Machine
end

