-- ==== Sys2Proof/Laws/Ops.lean ====
section
/-!
SUPPORT. Laws of the named operations: what a register reads as after each of them, what an event and an error leave, and
what a command answers.
-/

namespace Sys2Proof.Machine

/-- A register reads as what was last put into it. -/
theorem reg_setReg (d : Dev) (a b : Nat) (w : Word) : reg (setReg d a w) b = if b = a then w else reg d b :=
  tget_tput regReset d.regs a b w

@[simp] theorem reg_setReg_self (d : Dev) (a : Nat) (w : Word) : reg (setReg d a w) a = w := by simp [reg_setReg]

theorem inForce_setForce (d : Dev) (a b : Nat) (w : Word) :
    inForce (setForce d a w) b = if b = a then w else inForce d b := tget_tput regReset d.force a b w

theorem reg_poke (d : Dev) (a hi lo v b : Nat) :
    reg (poke d a hi lo v) b = if b = a then putFld (reg d a) hi lo v else reg d b := reg_setReg d a b _

theorem reg_pokeBit (d : Dev) (a i b : Nat) (x : Bool) :
    reg (pokeBit d a i x) b = if b = a then putBit (reg d a) i x else reg d b := reg_setReg d a b _

theorem reg_countBy (d : Dev) (a hi lo n b : Nat) :
    reg (countBy d a hi lo n) b = if b = a then putFld (reg d a) hi lo (satInc (hi + 1 - lo) (rf d a hi lo) n) else reg d b :=
  reg_setReg d a b _

@[simp] theorem reg_emit (d : Dev) (o : Out) (b : Nat) : reg (emit d o) b = reg d b := rfl

@[simp] theorem reg_firePulse (d : Dev) (c b : Nat) : reg (firePulse d c) b = reg d b := rfl

/-- An event sets its EVT_PEND bit and changes no other register. -/
theorem reg_evt (d : Dev) (pg b a : Nat) :
    reg (evt d pg b) a = if a = ra pg 0x010 then putBit (reg d (ra pg 0x010)) b true else reg d a := by
  unfold evt
  dsimp only
  split
  · split
    · simp [reg_pokeBit]
    · simp [reg_pokeBit]
  · simp [reg_pokeBit]

/-- A saturating counter never falls. -/
theorem satInc_ge (n x k : Nat) (h : x < 2 ^ n) : x ≤ satInc n x k := by
  unfold satInc
  omega

/-- An error waits, with its code, severity and level, behind those that already do. -/
theorem raise_errIn (d : Dev) (pg code sev level detail : Nat) :
    ∃ e, (raise d pg code sev level detail).errIn = d.errIn ++ [e] ∧ e.code = code ∧ e.sev = sev ∧ e.level = level ∧
      e.detail = detail % 2 ^ 32 ∧ e.src = pageSource pg % 128 ∧ e.sysLine = d.pos.sysLine := by
  unfold raise
  dsimp only
  split
  · exact ⟨_, rfl, rfl, rfl, rfl, rfl, rfl, rfl⟩
  · exact ⟨_, rfl, rfl, rfl, rfl, rfl, rfl, rfl⟩

/-! ### What a command answers -/

theorem runDev_up (s : State) (f : Dev → Dev) (h : s.dev.life = .up) : runDev s f = .next { s with dev := f s.dev } := by
  simp [runDev, h]

theorem runDev_down (s : State) (f : Dev → Dev) (h : s.dev.life ≠ .up) : runDev s f = .next s := by simp [runDev, h]

theorem runMem_up (s : State) (f : Dev → Mem → Dev × Mem) (h : s.dev.life = .up) :
    runMem s f = .next { s with dev := (f s.dev s.mem).1, mem := (f s.dev s.mem).2 } := by simp [runMem, h]

theorem runMem_down (s : State) (f : Dev → Mem → Dev × Mem) (h : s.dev.life ≠ .up) : runMem s f = .next s := by
  simp [runMem, h]

theorem sendMem_up (s : State) (f : Dev → Mem → Dev × Mem) (h : s.dev.life = .up) :
    sendMem s f = .next { s with dev := (f s.dev s.mem).1, mem := (f s.dev s.mem).2 } := by simp [sendMem, sending, h]

theorem sendDev_up (s : State) (f : Dev → Dev) (h : s.dev.life = .up) :
    sendDev s f = .next { s with dev := f s.dev } := by simp [sendDev, sending, h]

end Sys2Proof.Machine
end

