-- ==== Sys2Proof/Laws/Frame.lean ====
section
/-!
SUPPORT. Frames: what the shared operations on registers, counters, events and the log leave as it was, in the terms of
`SameRegs`, `OnlyShown` and `OnlyRegs`, and how frames compose.
-/

namespace Sys2Proof.Machine

/-! ### OnlyShown -/

theorem shown_refl (d : Dev) : OnlyShown d d := rfl

theorem shown_trans {d e f : Dev} (h1 : OnlyShown d e) (h2 : OnlyShown e f) : OnlyShown d f := by
  unfold OnlyShown at *
  rw [← h1, ← h2]

theorem shown_setReg (d : Dev) (a : Nat) (w : Word) : OnlyShown d (setReg d a w) := rfl

theorem shown_emit (d : Dev) (o : Out) : OnlyShown d (emit d o) := rfl

theorem shown_firePulse (d : Dev) (c : Nat) : OnlyShown d (firePulse d c) := rfl

theorem shown_evt (d : Dev) (pg b : Nat) : OnlyShown d (evt d pg b) := by
  unfold evt
  dsimp only
  split
  · split <;> rfl
  · rfl

theorem shown_foldl {α : Type} (f : Dev → α → Dev) (hf : ∀ d x, OnlyShown d (f d x)) (l : List α) (d : Dev) :
    OnlyShown d (l.foldl f d) := by
  induction l generalizing d with
  | nil => exact shown_refl d
  | cons x r ih => exact shown_trans (hf d x) (ih _)

/-- A field of the part that is neither a register, Wicker's nor the log is as it was. -/
theorem shown_field {α : Type} {d e : Dev} (h : OnlyShown d e) (f : Dev → α)
    (hf : ∀ (x : Dev) (r : Tbl Word) (w : WkrSt) (o : List Out), f { x with regs := r, wkr := w, out := o } = f x) :
    f e = f d := by
  have hx := hf e d.regs { e.wkr with fired := d.wkr.fired } d.out
  unfold OnlyShown at h
  rw [h] at hx
  exact hx.symm

/-! ### SameRegs -/

theorem same_refl (d : Dev) (as : List Nat) : SameRegs d d as := fun _ _ => rfl

theorem same_mono {d e : Dev} {as bs : List Nat} (h : SameRegs d e as) (hs : ∀ a ∈ as, a ∈ bs) : SameRegs d e bs :=
  fun a ha => h a (fun hm => ha (hs a hm))

theorem same_trans {d e f : Dev} {as : List Nat} (h1 : SameRegs d e as) (h2 : SameRegs e f as) : SameRegs d f as :=
  fun a ha => (h2 a ha).trans (h1 a ha)

theorem same_setReg (d : Dev) (a : Nat) (w : Word) : SameRegs d (setReg d a w) [a] := by
  intro b hb
  rw [reg_setReg, if_neg (by simpa using hb)]

theorem same_evt (d : Dev) (pg b : Nat) : SameRegs d (evt d pg b) [ra pg 0x010] := by
  intro a ha
  rw [reg_evt, if_neg (by simpa using ha)]

/-! ### OnlyRegs -/

theorem only_refl (d : Dev) (as : List Nat) : OnlyRegs d d as := ⟨same_refl d as, shown_refl d⟩

theorem only_mono {d e : Dev} {as bs : List Nat} (h : OnlyRegs d e as) (hs : ∀ a ∈ as, a ∈ bs) : OnlyRegs d e bs :=
  ⟨same_mono h.1 hs, h.2⟩

theorem only_trans {d e f : Dev} {as bs : List Nat} (h1 : OnlyRegs d e as) (h2 : OnlyRegs e f bs) :
    OnlyRegs d f (as ++ bs) :=
  ⟨same_trans (same_mono h1.1 (fun _ h => List.mem_append_left _ h)) (same_mono h2.1 (fun _ h => List.mem_append_right _ h)),
    shown_trans h1.2 h2.2⟩

theorem only_setReg (d : Dev) (a : Nat) (w : Word) : OnlyRegs d (setReg d a w) [a] := ⟨same_setReg d a w, rfl⟩

theorem only_poke (d : Dev) (a hi lo v : Nat) : OnlyRegs d (poke d a hi lo v) [a] := only_setReg d a _

theorem only_pokeBit (d : Dev) (a i : Nat) (b : Bool) : OnlyRegs d (pokeBit d a i b) [a] := only_setReg d a _

theorem only_countBy (d : Dev) (a hi lo n : Nat) : OnlyRegs d (countBy d a hi lo n) [a] := only_setReg d a _

theorem only_count (d : Dev) (a : Nat) : OnlyRegs d (count d a) [a] := only_setReg d a _

theorem only_evt (d : Dev) (pg b : Nat) : OnlyRegs d (evt d pg b) [ra pg 0x010] := ⟨same_evt d pg b, shown_evt d pg b⟩

theorem only_emit (d : Dev) (o : Out) : OnlyRegs d (emit d o) [] := ⟨fun _ _ => rfl, rfl⟩

/-! ### Fields and bits that an operation writes -/

theorem rb_pokeBit_self (d : Dev) (a i : Nat) (b : Bool) (h : i < 32) : rb (pokeBit d a i b) a i = b := by
  unfold rb
  rw [reg_pokeBit, if_pos rfl, bitOf_putBit _ _ _ _ h, if_pos rfl]

theorem rf_poke_self (d : Dev) (a hi lo v : Nat) (h : hi < 32) : rf (poke d a hi lo v) a hi lo = v % 2 ^ (hi + 1 - lo) := by
  unfold rf
  rw [reg_poke, if_pos rfl, fld_putFld_self _ _ _ _ h]

/-- A counter takes the saturated sum. -/
theorem rf_countBy_self (d : Dev) (a hi lo n : Nat) (h : hi < 32) :
    rf (countBy d a hi lo n) a hi lo = satInc (hi + 1 - lo) (rf d a hi lo) n := by
  have h1 := rf_poke_self d a hi lo (satInc (hi + 1 - lo) (rf d a hi lo) n) h
  rw [Nat.mod_eq_of_lt] at h1
  · exact h1
  · have := Nat.two_pow_pos (hi + 1 - lo)
    unfold satInc
    omega

/-- An event's bit of EVT_PEND is set. -/
theorem rb_evt_self (d : Dev) (pg b : Nat) (h : b < 32) : rb (evt d pg b) (ra pg 0x010) b = true := by
  unfold rb
  rw [reg_evt, if_pos rfl, bitOf_putBit _ _ _ _ h, if_pos rfl]

end Sys2Proof.Machine
end

