-- ==== Sys2Proof/Laws/Memory.lean ====
section
/-!
SUPPORT. Laws of the byte memories: what keeps their canonical form.
-/

namespace Sys2Proof.Machine

/-- The canonical form, memory by memory. -/
theorem Memory.wf_iff (m : Mem) : Memory.wf m = true ↔
    twf zeroByte m.host = true ∧ twf (lpxDef m) m.lpx = true ∧ twf zeroByte m.tbl = true ∧ twf zeroByte m.qdr = true ∧
      twf zeroByte m.handle = true ∧ twf zeroByte m.win = true ∧ twf flashByte m.flash = true := by
  simp only [Memory.wf, Bool.and_eq_true, and_assoc]

/-- Memory after reset is in canonical form. -/
theorem wf_reset : Memory.wf State.reset.mem = true := by decide

theorem wf_host (m : Mem) (t : List Host.Cell) (h : Memory.wf m = true) (ht : twf zeroByte t = true) :
    Memory.wf { m with host := t } = true := by
  rw [Memory.wf_iff] at h ⊢
  exact ⟨ht, h.2⟩

theorem wf_lpx (m : Mem) (t : List Host.Cell) (h : Memory.wf m = true) (ht : twf (lpxDef m) t = true) :
    Memory.wf { m with lpx := t } = true := by
  rw [Memory.wf_iff] at h ⊢
  exact ⟨h.1, ht, h.2.2⟩

theorem wf_tbl (m : Mem) (t : List Host.Cell) (h : Memory.wf m = true) (ht : twf zeroByte t = true) :
    Memory.wf { m with tbl := t } = true := by
  rw [Memory.wf_iff] at h ⊢
  exact ⟨h.1, h.2.1, ht, h.2.2.2⟩

theorem wf_qdr (m : Mem) (t : List Host.Cell) (h : Memory.wf m = true) (ht : twf zeroByte t = true) :
    Memory.wf { m with qdr := t } = true := by
  rw [Memory.wf_iff] at h ⊢
  exact ⟨h.1, h.2.1, h.2.2.1, ht, h.2.2.2.2⟩

theorem wf_handle (m : Mem) (t : List Host.Cell) (h : Memory.wf m = true) (ht : twf zeroByte t = true) :
    Memory.wf { m with handle := t } = true := by
  rw [Memory.wf_iff] at h ⊢
  exact ⟨h.1, h.2.1, h.2.2.1, h.2.2.2.1, ht, h.2.2.2.2.2⟩

theorem wf_win (m : Mem) (t : List Host.Cell) (h : Memory.wf m = true) (ht : twf zeroByte t = true) :
    Memory.wf { m with win := t } = true := by
  rw [Memory.wf_iff] at h ⊢
  exact ⟨h.1, h.2.1, h.2.2.1, h.2.2.2.1, h.2.2.2.2.1, ht, h.2.2.2.2.2.2⟩

theorem wf_flash (m : Mem) (t : List Host.Cell) (h : Memory.wf m = true) (ht : twf flashByte t = true) :
    Memory.wf { m with flash := t } = true := by
  rw [Memory.wf_iff] at h ⊢
  exact ⟨h.1, h.2.1, h.2.2.1, h.2.2.2.1, h.2.2.2.2.1, h.2.2.2.2.2.1, ht⟩

/-- A write of host memory keeps the form. -/
theorem wf_host_write (m : Mem) (a : Nat) (bs : List Byte) (h : Memory.wf m = true) :
    Memory.wf { m with host := mwrite zeroByte m.host a bs } = true :=
  wf_host m _ h (twf_mwrite _ bs _ a ((Memory.wf_iff m).mp h).1)

/-- A write of LPDDR5X keeps the form. -/
theorem wf_lpx_write (m : Mem) (a : Nat) (bs : List Byte) (h : Memory.wf m = true) :
    Memory.wf { m with lpx := mwrite (lpxDef m) m.lpx a bs } = true :=
  wf_lpx m _ h (twf_mwrite _ bs _ a ((Memory.wf_iff m).mp h).2.1)

/-- A write of the table windows keeps the form. -/
theorem wf_tbl_write (m : Mem) (a : Nat) (bs : List Byte) (h : Memory.wf m = true) :
    Memory.wf { m with tbl := mwrite zeroByte m.tbl a bs } = true :=
  wf_tbl m _ h (twf_mwrite _ bs _ a ((Memory.wf_iff m).mp h).2.2.1)

/-- A write of Handle-core memory keeps the form. -/
theorem wf_handle_write (m : Mem) (a : Nat) (bs : List Byte) (h : Memory.wf m = true) :
    Memory.wf { m with handle := mwrite zeroByte m.handle a bs } = true :=
  wf_handle m _ h (twf_mwrite _ bs _ a ((Memory.wf_iff m).mp h).2.2.2.2.1)

/-- A reset keeps the form. -/
theorem wf_resetMem (m : Mem) (h : Memory.wf m = true) : Memory.wf (resetMem m) = true := by
  rw [Memory.wf_iff] at h ⊢
  exact ⟨h.1, rfl, rfl, rfl, rfl, rfl, h.2.2.2.2.2.2⟩

theorem wf_mk (d : Dev) (m : Mem) (h : Memory.wf m = true) : Memory.wf (d, m).2 = true := h

/-- Either way of a choice keeps the form. -/
theorem wf_ite {c : Prop} [Decidable c] (x y : Dev × Mem) (hx : Memory.wf x.2 = true) (hy : Memory.wf y.2 = true) :
    Memory.wf (if c then x else y).2 = true := by
  split
  · exact hx
  · exact hy

/-! ### Border -/

theorem produce_wf (d : Dev) (m : Mem) (rr : Nat) (q : Bool) (h : Memory.wf m = true) :
    Memory.wf (produce d m rr q).2 = true := by
  unfold produce
  dsimp only
  split
  · exact wf_host_write _ _ _ h
  · exact h

theorem statDma_wf (d : Dev) (m : Mem) (w : Nat) (bs : List Byte) (h : Memory.wf m = true) :
    Memory.wf (statDma d m w bs).2 = true := by
  unfold statDma
  split
  · exact produce_wf _ _ _ _ (wf_host_write _ _ _ (wf_host_write _ _ _ h))
  · exact h

theorem refineCopy_wf (d : Dev) (m : Mem) (r : Rec) (h : Memory.wf m = true) : Memory.wf (refineCopy d m r).2.1 = true := by
  unfold refineCopy
  dsimp only
  split
  · exact h
  · split
    · exact h
    · exact wf_handle_write _ _ _ h

theorem numberRec_wf (d : Dev) (m : Mem) (r : Rec) (c : CoilOut) (h : Memory.wf m = true) :
    Memory.wf (numberRec d m r c).2 = true := refineCopy_wf _ _ _ h

theorem intake_wf (d : Dev) (m : Mem) (h : Memory.wf m = true) : Memory.wf (intake d m).2 = true := by
  unfold intake
  dsimp only
  split
  · exact h
  · split
    · exact numberRec_wf _ _ _ _ h
    · exact numberRec_wf _ _ _ _ h
    · exact numberRec_wf _ _ _ _ h
    · exact numberRec_wf _ _ _ _ h
    · split
      · exact h
      · exact numberRec_wf _ _ _ _ h

theorem sendTo_wf (d : Dev) (m : Mem) (dd : Nat) (r : Rec) (h : Memory.wf m = true) : Memory.wf (sendTo d m dd r).2 = true := by
  unfold sendTo
  split
  · exact produce_wf _ _ _ _ (wf_host_write _ _ _ h)
  · exact h
  · exact h
  · exact h

theorem deliver_wf (d : Dev) (m : Mem) (dd : Nat) (h : Memory.wf m = true) : Memory.wf (deliver d m dd).2 = true := by
  unfold deliver
  refine wf_ite _ _ h ?_
  dsimp only
  generalize scanStore d dd _ _ = z
  split
  · exact sendTo_wf _ _ _ _ h
  · split
    · exact h
    · refine wf_ite _ _ h (wf_ite _ _ h ?_)
      exact wf_ite _ _ (sendTo_wf _ _ _ _ h) (sendTo_wf _ _ _ _ h)

theorem patchWrite_wf (d : Dev) (m : Mem) (h : Memory.wf m = true) : Memory.wf (patchWrite d m).2 = true := by
  unfold patchWrite
  split
  · exact h
  · dsimp only
    have h3 : ∀ a bs, Memory.wf { m with host := mwrite zeroByte (mwrite zeroByte (mwrite zeroByte m.host (a + 64)
        (bs : List Byte × List Byte × List Byte).1) (a + 8) bs.2.1) a bs.2.2 } = true := fun a bs =>
      wf_host m _ h (twf_mwrite _ _ _ _ (twf_mwrite _ _ _ _ (twf_mwrite _ _ _ _ ((Memory.wf_iff m).mp h).1)))
    refine wf_ite _ _ h (wf_ite _ _ (produce_wf _ _ _ _ ?_) ?_)
    · exact h3 _ (_, _, _)
    · exact h3 _ (_, _, _)

/-! ### The host interface -/

theorem writeCompletion_wf (d : Dev) (m : Mem) (h : Memory.wf m = true) : Memory.wf (writeCompletion d m).2 = true := by
  unfold writeCompletion
  split
  · exact h
  · split
    · exact h
    · split
      · exact h
      · exact produce_wf _ _ _ _ (wf_host_write _ _ _ h)

theorem patchFetch_wf (d : Dev) (m : Mem) (tag : Nat) (ok : Bool) (h : Memory.wf m = true) :
    Memory.wf (patchFetch d m tag ok).2 = true := by
  unfold patchFetch
  split
  · exact h
  · dsimp only
    split
    · exact h
    · split
      · exact h
      · exact wf_host_write _ _ _ h

theorem recordFetch_wf (d : Dev) (m : Mem) (tag : Nat) (ok : Bool) (h : Memory.wf m = true) :
    Memory.wf (recordFetch d m tag ok).2 = true := by
  unfold recordFetch
  split
  · exact h
  · dsimp only
    split
    · exact h
    · exact wf_host_write _ _ _ h

theorem writeJob_wf (m : Mem) (j : Job) (rs : List Rec) (h : Memory.wf m = true) : Memory.wf (writeJob m j rs).1 = true := by
  induction rs generalizing m j with
  | nil => exact h
  | cons r rs ih =>
    unfold writeJob
    split
    · exact ih _ _ (wf_host_write _ _ _ h)
    · exact ih _ _ h

theorem jobNext_wf (d : Dev) (m : Mem) (s : Nat) (h : Memory.wf m = true) : Memory.wf (jobNext d m s).2 = true := by
  unfold jobNext
  split
  · exact h
  · split
    · exact h
    · exact writeJob_wf _ _ _ h

theorem jobDone_wf (d : Dev) (m : Mem) (s : Nat) (h : Memory.wf m = true) : Memory.wf (jobDone d m s).2 = true := by
  unfold jobDone
  split
  · exact h
  · rename_i e
    unfold jobFinish at e
    split at e
    · cases e
    · dsimp only at e
      split at e
      · cases e
      · cases e
        exact wf_host_write _ _ _ (writeJob_wf _ _ _ h)

/-! ### History -/

theorem indexChunk_wf (d : Dev) (m : Mem) (w x : Nat) (c : RingCfg) (no off len : Nat) (raw dr : Bool)
    (h : Memory.wf m = true) : Memory.wf (indexChunk d m w x c no off len raw dr).2 = true := wf_lpx_write _ _ _ h

theorem chunkWrite_wf (d : Dev) (m : Mem) (nn : Nat) (room : Bool) (h : Memory.wf m = true) :
    Memory.wf (chunkWrite d m nn room).2 = true := by
  unfold chunkWrite
  dsimp only
  split
  · exact h
  · split
    · exact indexChunk_wf _ _ _ _ _ _ _ _ _ _ h
    · exact wf_lpx_write _ _ _ (indexChunk_wf _ _ _ _ _ _ _ _ _ _ h)

/-! ### BAR2 -/

theorem barPut_wf (d : Dev) (m : Mem) (o : Nat) (x : Byte) (h : Memory.wf m = true) : Memory.wf (barPut d m o x).2 = true := by
  have hi := (Memory.wf_iff m).mp h
  unfold barPut
  split
  · exact h
  · split
    · exact h
    · split
      · unfold walePut
        split
        · exact h
        · exact wf_tbl _ _ h (twf_tput _ _ _ _ hi.2.2.1)
      · split
        · unfold qdrPut
          split
          · exact h
          · exact wf_qdr _ _ h (twf_tput _ _ _ _ hi.2.2.2.1)
        · split
          · unfold lpxPut
            split
            · exact wf_lpx _ _ h (twf_tput _ _ _ _ hi.2.1)
            · exact h
          · exact wf_win _ _ h (twf_tput _ _ _ _ hi.2.2.2.2.2.1)

theorem barPuts_wf (bs : List Byte) (o : Nat) (r : Dev × Mem) (h : Memory.wf r.2 = true) :
    Memory.wf (barPuts bs o r).2 = true := by
  induction bs generalizing o r with
  | nil => exact h
  | cons x xs ih => exact ih _ _ (barPut_wf _ _ _ _ h)

/-- A write through BAR2 keeps the form. -/
theorem barWrite_wf (d : Dev) (m : Mem) (o : Nat) (bs : List Byte) (h : Memory.wf m = true) :
    Memory.wf (barWrite d m o bs).2 = true := barPuts_wf _ _ _ h

/-! ### LPDDR5X and flash -/

/-- What an unlisted byte reads as outside a range newly lost. -/
theorem lpxDef_lose (m : Mem) (l : List Host.Cell) (lo hi a : Nat) (ha : a < lo ∨ hi < a) :
    lpxDef { m with lpx := l, lpxLost := (lo, hi) :: m.lpxLost } a = lpxDef m a := by
  have hz : ∀ (r : List (Nat × Nat)) (n : Nat), (r.zipIdx (n + 1)).find? (fun r => decide (r.1.1 ≤ a ∧ a ≤ r.1.2)) =
      ((r.zipIdx n).find? (fun r => decide (r.1.1 ≤ a ∧ a ≤ r.1.2))).map (fun p => (p.1, p.2 + 1)) := by
    intro r
    induction r with
    | nil => intro n; rfl
    | cons p r ih =>
      intro n
      simp only [List.zipIdx_cons, List.find?_cons]
      cases decide (p.1 ≤ a ∧ a ≤ p.2)
      · exact ih (n + 1)
      · rfl
  unfold lpxDef
  dsimp only
  rw [List.zipIdx_cons, List.find?_cons_of_neg (by simp; omega), hz _ 0]
  cases (m.lpxLost.zipIdx.find? (fun r => decide (r.1.1 ≤ a ∧ a ≤ r.1.2))) with
  | none => rfl
  | some r => simp

/-- An eighth of the LPDDR5X fitted is not empty. -/
theorem lpxSize_pos (d : Dev) : 0 < lpxSize d / 8 := by
  unfold lpxSize lpxRanks lpxRowBits
  split <;> split <;> decide

theorem loseSegments_wf (d : Dev) (m : Mem) (h : Memory.wf m = true) : Memory.wf (loseSegments d m) = true := by
  unfold loseSegments
  dsimp only
  generalize List.range 8 = l
  induction l generalizing m with
  | nil => exact h
  | cons s l ih =>
    rw [List.foldl_cons]
    refine ih _ ?_
    split
    · exact h
    · rw [Memory.wf_iff] at h ⊢
      refine ⟨h.1, ?_, h.2.2⟩
      unfold twf
      refine twfFrom_congr (lpxDef m) _ _ 0 ?_ (twfFrom_filter _ _ _ _ h.2.1)
      intro p hp
      simp only [List.mem_filter, Bool.not_eq_true', decide_eq_false_iff_not] at hp
      refine (lpxDef_lose m _ _ _ _ ?_).symm
      have hn := hp.2
      have hpos : 0 < (s + 1) * (lpxSize d / 8) := Nat.mul_pos (Nat.succ_pos s) (lpxSize_pos d)
      omega

theorem flashErase_wf (m : Mem) (a n : Nat) (h : Memory.wf m = true) : Memory.wf (flashErase m a n) = true :=
  wf_flash _ _ h (twfFrom_filter _ _ _ _ ((Memory.wf_iff m).mp h).2.2.2.2.2.2)

theorem flashProgram_wf (m : Mem) (a : Nat) (bs : List Byte) (h : Memory.wf m = true) : Memory.wf (flashProgram m a bs) = true :=
  wf_flash _ _ h (twf_mwrite _ _ _ _ ((Memory.wf_iff m).mp h).2.2.2.2.2.2)

theorem writeCopy_wf (m : Mem) (s : Store) (k : Nat) (body : List Byte) (h : Memory.wf m = true) :
    Memory.wf (writeCopy m s k body) = true := by
  unfold writeCopy
  split
  exact flashProgram_wf _ _ _ (flashProgram_wf _ _ _ (flashProgram_wf _ _ _ (flashErase_wf _ _ _ h)))

theorem saveBoot_wf (d : Dev) (m : Mem) (o n : Boot) (h : Memory.wf m = true) : Memory.wf (saveBoot d m o n).1 = true := by
  unfold saveBoot
  split
  · dsimp only
    exact writeCopy_wf _ _ _ _ h
  · exact h

theorem ageAppend_wf (d : Dev) (m : Mem) (b : Boot) (h : Memory.wf m = true) : Memory.wf (ageAppend d m b) = true := by
  unfold ageAppend
  dsimp only
  split
  · exact writeCopy_wf _ _ _ _ h
  · exact h

theorem ageBaseline_wf (d : Dev) (m : Mem) (b : Boot) (k now : Nat) (h : Memory.wf m = true) :
    Memory.wf (ageBaseline d m b k now).2 = true := by
  unfold ageBaseline
  refine wf_ite _ _ h (wf_ite _ _ ?_ h)
  exact wf_mk _ _ (writeCopy_wf m .ageing 0 _ h)

end Sys2Proof.Machine
end

