-- ==== Sys2Proof/Laws/Kept.lean ====
section
/-!
SUPPORT. What keeps the canonical form of the memories and the three slots of the boot record distinct: every operation
that reaches the memories or the boot record, up to the commands.
-/

namespace Sys2Proof.Machine

theorem wf_foldl {α : Type} (f : Dev × Mem → α → Dev × Mem) (hf : ∀ r x, Memory.wf r.2 = true → Memory.wf (f r x).2 = true)
    (l : List α) (r : Dev × Mem) (h : Memory.wf r.2 = true) : Memory.wf (l.foldl f r).2 = true := by
  induction l generalizing r with
  | nil => exact h
  | cons x l ih => exact ih _ (hf r x h)

theorem wf_fst (r : Dev × Mem) (ok : Bool) (h : Memory.wf r.2 = true) : Memory.wf (r, ok).1.2 = true := h

theorem kept_mk (d : Dev) (m : Mem) (b : Boot) (h : Memory.wf m = true) (hb : slotsDistinct b) : Kept (d, m, b) := ⟨h, hb⟩

theorem kept_ite {c : Prop} [Decidable c] {x y : Dev × Mem × Boot} (hx : Kept x) (hy : Kept y) : Kept (if c then x else y) := by
  split
  · exact hx
  · exact hy

/-! ### Register writes -/

theorem srRequest_wf (d : Dev) (m : Mem) (e : Bool) (h : Memory.wf m = true) : Memory.wf (srRequest d m e).2 = true := by
  unfold srRequest
  refine wf_ite _ _ h ?_
  dsimp only
  split
  · exact loseSegments_wf _ _ h
  · exact h

theorem pasrWrite_wf (d : Dev) (m : Mem) (v : Word) (h : Memory.wf m = true) : Memory.wf (pasrWrite d m v).2 = true :=
  wf_ite _ _ h (srRequest_wf _ _ _ h)

theorem lpxWrite_wf (d : Dev) (m : Mem) (o : Nat) (v : Word) (h : Memory.wf m = true) : Memory.wf (lpxWrite d m o v).2 = true :=
  wf_ite _ _ h (wf_ite _ _ h (wf_ite _ _ h (wf_ite _ _ h (wf_ite _ _ (pasrWrite_wf _ _ _ h) (wf_ite _ _ h (wf_ite _ _ h h))))))

theorem pageWrite_wf (d : Dev) (m : Mem) (b : Boot) (pg o : Nat) (v : Word) (h : Memory.wf m = true) :
    Memory.wf (pageWrite d m b pg o v).2 = true := by
  unfold pageWrite
  iterate 9 refine wf_ite _ _ (wf_mk _ _ h) ?_
  refine wf_ite _ _ (lpxWrite_wf _ _ _ _ h) ?_
  iterate 12 refine wf_ite _ _ (wf_mk _ _ h) ?_
  exact wf_mk _ _ h

theorem writeWord_wf (d : Dev) (m : Mem) (b : Boot) (a : Nat) (v : Word) (h : Memory.wf m = true) :
    Memory.wf (writeWord d m b a v).2 = true := wf_ite _ _ h (pageWrite_wf _ _ _ _ _ _ h)

theorem applyEntry_wf (b : Boot) (r : Dev × Mem) (e : RecipeEnt) (h : Memory.wf r.2 = true) :
    Memory.wf (applyEntry b r e).2 = true := by
  unfold applyEntry
  refine wf_ite _ _ (barWrite_wf _ _ _ _ h) ?_
  exact wf_foldl _ (fun r i hr => writeWord_wf _ _ _ _ _ hr) _ _ h

theorem applyNow_wf (d : Dev) (m : Mem) (b : Boot) (es : List RecipeEnt) (h : Memory.wf m = true) :
    Memory.wf (applyNow d m b es).2 = true := by
  unfold applyNow
  exact wf_mk _ _ (wf_foldl _ (applyEntry_wf b) es (d, m) h)

theorem applyAhead_wf (d : Dev) (m : Mem) (b : Boot) (es : List RecipeEnt) (h : Memory.wf m = true) :
    Memory.wf (applyAhead d m b es).2 = true := by
  unfold applyAhead
  exact wf_mk _ _ (wf_foldl _ (applyEntry_wf b) es (d, m) h)

theorem applySettings_wf (d : Dev) (m : Mem) (b : Boot) (h : Memory.wf m = true) : Memory.wf (applySettings d m b).1.2 = true := by
  unfold applySettings
  cases settingsReadable d m with
  | some c =>
    refine wf_fst _ _ ?_
    exact applyNow_wf _ _ _ _ h
  | none =>
    dsimp only
    cases newest m .frozen with
    | none => exact wf_fst _ _ (wf_mk _ _ h)
    | some p =>
      refine wf_fst _ _ ?_
      exact applyNow_wf _ _ _ _ h

theorem mirrorWord_wf (b : Boot) (a : Nat) (r : Dev × Mem) (v : Word) (h : Memory.wf r.2 = true) :
    Memory.wf (mirrorWord b a r v).2 = true := wf_ite _ _ h (writeWord_wf _ _ _ _ _ h)

theorem applyMirror_wf (d : Dev) (m : Mem) (b : Boot) (w : MirWrite) (h : Memory.wf m = true) :
    Memory.wf (applyMirror d m b w).2 = true := by
  unfold applyMirror
  refine wf_ite _ _ (barWrite_wf _ _ _ _ h) (wf_foldl _ ?_ _ _ (wf_mk _ _ h))
  intro r x hr
  exact mirrorWord_wf _ _ _ _ hr

theorem takeMirror_wf (d : Dev) (m : Mem) (b : Boot) (ws : List Dword) (h : Memory.wf m = true) :
    Memory.wf (takeMirror d m b ws).2 = true := by
  unfold takeMirror
  refine wf_ite _ _ h ?_
  dsimp only
  split
  · exact applyMirror_wf _ _ _ _ h
  · exact wf_ite _ _ (applyMirror_wf _ _ _ _ h) h

theorem mirrorNow_wf (d : Dev) (m : Mem) (b : Boot) (h : Memory.wf m = true) : Memory.wf (mirrorNow d m b).2 = true := by
  unfold mirrorNow
  refine wf_ite _ _ h (wf_foldl _ ?_ _ _ h)
  intro r w hr
  exact wf_ite _ _ (applyMirror_wf _ _ _ _ hr) (applyMirror_wf _ _ _ _ hr)

/-! ### Power -/

theorem wakeUp_wf (d : Dev) (m : Mem) (h : Memory.wf m = true) : Memory.wf (wakeUp d m).2 = true := loseSegments_wf _ _ h

theorem wakeFire_wf (d : Dev) (m : Mem) (k : Nat) (h : Memory.wf m = true) : Memory.wf (wakeFire d m k).2 = true :=
  wf_ite _ _ (wakeUp_wf _ _ h) h

theorem timerWake_wf (d : Dev) (m : Mem) (h : Memory.wf m = true) : Memory.wf (timerWake d m).2 = true :=
  wf_ite _ _ (wakeFire_wf _ _ _ h) h

theorem motionWake_wf (d : Dev) (m : Mem) (h : Memory.wf m = true) : Memory.wf (motionWake d m).2 = true :=
  wf_ite _ _ (wakeFire_wf _ _ _ h) h

theorem wakeEdge_wf (d : Dev) (m : Mem) (k : Nat) (h : Memory.wf m = true) : Memory.wf (wakeEdge d m k).2 = true :=
  wf_ite _ _ (wakeFire_wf _ _ _ h) h

/-! ### The boot record and the images -/

theorem saveBoot_kept (d e : Dev) (m : Mem) (o n : Boot) (h : Memory.wf m = true) (ho : slotsDistinct o) (hn : slotsDistinct n) :
    Kept (e, saveBoot d m o n) := by
  refine ⟨saveBoot_wf d m o n h, ?_⟩
  unfold saveBoot
  split
  · exact hn
  · exact ho

theorem loadBoot_slots (m : Mem) (b : Boot) (h : slotsDistinct b) : slotsDistinct (loadBoot m b) := by
  unfold loadBoot
  split
  · exact h
  · dsimp only
    split
    · split
      · exact h
      · rename_i hn
        simp only [not_or] at hn
        exact hn
    · exact h

theorem revertSlots_slots (b : Boot) (h : slotsDistinct b) : slotsDistinct (revertSlots b) :=
  ⟨h.1.symm, h.2.2, h.2.1⟩

theorem rotate_slots (b : Boot) (h : slotsDistinct b) : slotsDistinct (rotate b) :=
  ⟨h.2.1.symm, h.2.2.symm, h.1⟩

/-- The choice of an image keeps the memories and the slots. -/
theorem romReverts_kept (d : Dev) (m : Mem) (b : Boot) (i : Img) (h : Memory.wf m = true) (hb : slotsDistinct b) :
    Kept ((romReverts d m b i).1, (romReverts d m b i).2.1, (romReverts d m b i).2.2.1) :=
  saveBoot_kept _ _ _ _ _ h hb (revertSlots_slots b hb)

theorem romChoose_kept (d : Dev) (m : Mem) (b : Boot) (h : Memory.wf m = true) (hb : slotsDistinct b) :
    Kept ((romChoose d m b).1, (romChoose d m b).2.1, (romChoose d m b).2.2.1) := by
  have keep : ∀ (e : Dev) (n : Nat), Kept (e, if n = b.fails then (m, b) else saveBoot d m b { b with fails := n }) := by
    intro e n
    split
    · exact ⟨h, hb⟩
    · exact saveBoot_kept _ _ _ _ _ h hb hb
  have keep' : ∀ (c e : Dev) (n : Nat), Kept (e, if n = b.fails then (m, b) else saveBoot c m b { b with fails := n }) := by
    intro c e n
    split
    · exact ⟨h, hb⟩
    · exact saveBoot_kept _ _ _ _ _ h hb hb
  unfold romChoose
  split
  · split
    · exact ⟨h, hb⟩
    · exact romReverts_kept _ _ _ _ h hb
  · split
    · exact ⟨h, hb⟩
    · dsimp only
      split
      · exact keep' _ _ _
      · split
        · exact romReverts_kept _ _ _ _ h hb
        · exact keep' _ _ _

theorem startImage_kept (d : Dev) (m : Mem) (b : Boot) (i : Img) (h : Memory.wf m = true) (hb : slotsDistinct b) :
    Kept (startImage d m b i) := by
  unfold startImage
  exact kept_mk _ _ _ (applySettings_wf _ _ _ h) hb

theorem upsett_kept (d : Dev) (m : Mem) (b : Boot) (h : Memory.wf m = true) (hb : slotsDistinct b) : Kept (upsett d m b) := by
  unfold upsett
  refine kept_ite ⟨h, hb⟩ (kept_ite ⟨h, hb⟩ (kept_ite ⟨h, hb⟩ (kept_ite ⟨h, hb⟩ ?_)))
  dsimp only
  have hk := romChoose_kept (pokeBit d thermStatA 26 false) m (loadBoot m b) h (loadBoot_slots m b hb)
  split <;> rename_i e <;> rw [e] at hk
  · exact startImage_kept _ _ _ _ hk.1 hk.2
  · exact hk

theorem resetPart_kept (d : Dev) (m : Mem) (b : Boot) (p : Bool) (c : Nat) (h : Memory.wf m = true) (hb : slotsDistinct b) :
    Kept (resetPart d m b p c) := upsett_kept _ _ _ (wf_resetMem _ h) hb

theorem powerOn_kept (d : Dev) (m : Mem) (b : Boot) (s t r o a : Bool) (h : Memory.wf m = true) (hb : slotsDistinct b) :
    Kept (powerOn d m b s t r o a) := resetPart_kept _ _ _ _ _ h hb

theorem railLost_kept (d : Dev) (m : Mem) (b : Boot) (r : Nat) (h : Memory.wf m = true) (hb : slotsDistinct b) :
    Kept (railLost d m b r) := ⟨wf_resetMem _ h, hb⟩

theorem warmReset_kept (d : Dev) (m : Mem) (b : Boot) (c : Nat) (h : Memory.wf m = true) (hb : slotsDistinct b) :
    Kept (warmReset d m b c) := by
  unfold warmReset
  split
  · exact kept_ite (resetPart_kept _ _ _ _ _ h hb) ⟨h, hb⟩
  · exact resetPart_kept _ _ _ _ _ h hb

theorem rootLockBack_kept (d : Dev) (m : Mem) (b : Boot) (h : Memory.wf m = true) (hb : slotsDistinct b) :
    Kept (rootLockBack d m b) := kept_ite (resetPart_kept _ _ _ _ _ h hb) ⟨h, hb⟩

theorem tripRelease_kept (d : Dev) (m : Mem) (b : Boot) (h : Memory.wf m = true) (hb : slotsDistinct b) :
    Kept (tripRelease d m b) := kept_ite (resetPart_kept _ _ _ _ _ h hb) ⟨h, hb⟩

theorem refRootBack_kept (d : Dev) (m : Mem) (b : Boot) (h : Memory.wf m = true) (hb : slotsDistinct b) :
    Kept (refRootBack d m b) := kept_ite (upsett_kept _ _ _ h hb) ⟨h, hb⟩

/-! ### Field update -/

theorem openSess_kept (d : Dev) (m : Mem) (b : Boot) (r : UpdRequest) (h : Memory.wf m = true) (hb : slotsDistinct b) :
    Kept (openSess d m b r) := by
  have hq : ∀ e, Kept (e, if b.staged then saveBoot d m b { b with staged := false } else (m, b)) := by
    intro e
    split
    · exact saveBoot_kept _ _ _ _ _ h hb hb
    · exact ⟨h, hb⟩
  unfold openSess
  refine kept_ite ⟨h, hb⟩ (kept_ite ⟨h, hb⟩ ?_)
  split
  · exact ⟨h, hb⟩
  · exact ⟨flashErase_wf _ _ _ (hq d).1, (hq d).2⟩

theorem stageBytes_wf (d : Dev) (m : Mem) (b : Boot) (r : UpdRequest) (ok : Bool) (h : Memory.wf m = true) :
    Memory.wf (stageBytes d m b r ok).2 = true := by
  unfold stageBytes
  refine wf_ite _ _ h ?_
  split
  · exact h
  · exact flashProgram_wf _ _ _ h

theorem writeSess_wf (d : Dev) (m : Mem) (b : Boot) (r : UpdRequest) (h : Memory.wf m = true) :
    Memory.wf (writeSess d m b r).2 = true := wf_ite _ _ h (wf_ite _ _ h (stageBytes_wf _ _ _ _ _ h))

theorem programWindow_wf (d : Dev) (m : Mem) (b : Boot) (h : Memory.wf m = true) : Memory.wf (programWindow d m b).2 = true :=
  wf_ite _ _ h (wf_ite _ _ h (stageBytes_wf _ _ _ _ _ h))

theorem closeSess_kept (d : Dev) (m : Mem) (b : Boot) (r : UpdRequest) (h : Memory.wf m = true) (hb : slotsDistinct b) :
    Kept (closeSess d m b r) := by
  unfold closeSess
  refine kept_ite ⟨h, hb⟩ (kept_ite ⟨h, hb⟩ ?_)
  dsimp only
  split
  · exact ⟨h, hb⟩
  · split
    · exact ⟨h, hb⟩
    · have hq := saveBoot_kept (endSess d) (endSess d) m b (rotate b) h hb (rotate_slots b hb)
      exact kept_ite (resetPart_kept _ _ _ _ _ hq.1 hq.2) (saveBoot_kept _ _ _ _ _ h hb hb)

theorem activateBack_kept (d : Dev) (m : Mem) (b : Boot) (r : UpdRequest) (h : Memory.wf m = true) (hb : slotsDistinct b) :
    Kept (activateBack d m b r) := by
  unfold activateBack
  split
  · exact ⟨h, hb⟩
  · exact saveBoot_kept _ _ _ _ _ h hb (revertSlots_slots b hb)

theorem activateStaged_kept (d : Dev) (m : Mem) (b : Boot) (r : UpdRequest) (f : Bool) (h : Memory.wf m = true)
    (hb : slotsDistinct b) : Kept (activateStaged d m b r f) := by
  unfold activateStaged
  refine kept_ite ⟨h, hb⟩ ?_
  have hq := saveBoot_kept d d m b (rotate b) h hb (rotate_slots b hb)
  split
  · exact saveBoot_kept _ _ _ _ _ hq.1 hq.2 hb
  · exact hq

theorem activateImage_kept (d : Dev) (m : Mem) (b : Boot) (r : UpdRequest) (f : Bool) (h : Memory.wf m = true)
    (hb : slotsDistinct b) : Kept (activateImage d m b r f) := by
  unfold activateImage
  refine kept_ite ⟨h, hb⟩ (kept_ite ⟨h, hb⟩ (kept_ite ⟨h, hb⟩ ?_))
  split
  · exact ⟨h, hb⟩
  · exact kept_ite (activateBack_kept _ _ _ _ h hb) (kept_ite ⟨h, hb⟩ (activateStaged_kept _ _ _ _ _ h hb))

theorem endRestart_wf (d : Dev) (m : Mem) (b : Boot) (h : Memory.wf m = true) : Memory.wf (endRestart d m b).2 = true := by
  unfold endRestart
  exact wf_ite _ _ h (wf_mk _ _ (applySettings_wf _ _ _ h))

theorem watchdog_kept (d : Dev) (m : Mem) (b : Boot) (h : Memory.wf m = true) (hb : slotsDistinct b) : Kept (watchdog d m b) := by
  unfold watchdog
  refine kept_ite ⟨h, hb⟩ ?_
  split
  · exact kept_ite (resetPart_kept _ _ _ _ _ h hb) ⟨h, hb⟩
  · exact ⟨h, hb⟩

theorem goodStart_kept (d : Dev) (m : Mem) (b : Boot) (h : Memory.wf m = true) (hb : slotsDistinct b) : Kept (goodStart d m b) := by
  unfold goodStart
  split
  · exact ⟨h, hb⟩
  · refine kept_ite ⟨h, hb⟩ (kept_ite ⟨h, hb⟩ (kept_ite ⟨h, hb⟩ ?_))
    have hq := fun e : Dev => saveBoot_kept e e m b { b with confirmed := true, fails := 0 } h hb hb
    exact ⟨(hq _).1, (hq _).2⟩

theorem freezeRecipe_wf (d : Dev) (m : Mem) (h : Memory.wf m = true) : Memory.wf (freezeRecipe d m).2 = true := by
  unfold freezeRecipe
  split
  · exact h
  · exact wf_ite _ _ h (wf_mk _ _ (writeCopy_wf m .frozen 0 _ h))

theorem settingsWrite_wf (d : Dev) (m : Mem) (b : Boot) (h : Memory.wf m = true) : Memory.wf (settingsWrite d m b).2 = true := by
  unfold settingsWrite
  split
  · exact h
  · split
    · exact h
    · exact wf_ite _ _ h (wf_mk _ _ (applyAhead_wf _ _ _ _ (writeCopy_wf _ _ _ _ h)))

theorem sessionWrite_kept (d : Dev) (m : Mem) (b : Boot) (v : Word) (h : Memory.wf m = true) (hb : slotsDistinct b) :
    Kept (sessionWrite d m b v) := by
  have h1 : Kept (if bitOf v 31 then openSess d m b pcieReq else (d, m, b)) := kept_ite (openSess_kept _ _ _ _ h hb) ⟨h, hb⟩
  unfold sessionWrite
  generalize (if bitOf v 31 then openSess d m b pcieReq else (d, m, b)) = r at h1
  have h2 : Kept (if bitOf v 30 then closeSess r.1 r.2.1 r.2.2 pcieReq else r) :=
    kept_ite (closeSess_kept _ _ _ pcieReq h1.1 h1.2) h1
  exact kept_ite h2 h2

theorem ctrlWord_kept (d : Dev) (m : Mem) (b : Boot) (v : Word) (h : Memory.wf m = true) (hb : slotsDistinct b) :
    Kept (ctrlWord d m b v) := by
  unfold ctrlWord
  refine kept_ite ⟨h, hb⟩ ?_
  have hp : Memory.wf (if bitOf v 31 then programWindow d m b else (d, m)).2 = true := wf_ite _ _ (programWindow_wf _ _ _ h) h
  generalize (if bitOf v 31 then programWindow d m b else (d, m)) = p at hp
  refine kept_ite ⟨hp, hb⟩ ?_
  have hr : Kept (if bitOf v 30 then activateImage p.1 p.2 b pcieReq (bitOf v 26) else (p.1, p.2, b)) :=
    kept_ite (activateImage_kept _ _ _ _ _ hp hb) ⟨hp, hb⟩
  generalize (if bitOf v 30 then activateImage p.1 p.2 b pcieReq (bitOf v 26) else (p.1, p.2, b)) = r at hr
  refine kept_ite hr ?_
  dsimp only
  generalize (if bitOf v 29 = true then mcGoWrite r.1 else r.1) = e
  have hq : Memory.wf (if bitOf v 28 then freezeRecipe e r.2.1 else (e, r.2.1)).2 = true := wf_ite _ _ (freezeRecipe_wf _ _ hr.1) hr.1
  generalize (if bitOf v 28 then freezeRecipe e r.2.1 else (e, r.2.1)) = q at hq
  exact ⟨wf_ite _ _ (settingsWrite_wf _ _ _ hq) hq, hr.2⟩

theorem updPageWrite_kept (d : Dev) (m : Mem) (b : Boot) (o : Nat) (v : Word) (h : Memory.wf m = true) (hb : slotsDistinct b) :
    Kept (updPageWrite d m b o v) :=
  kept_ite (sessionWrite_kept _ _ _ _ h hb) (kept_ite (ctrlWord_kept _ _ _ _ h hb) ⟨h, hb⟩)

/-! ### The host's accesses -/

theorem localWord_kept (d : Dev) (m : Mem) (b : Boot) (a : Nat) (v : Word) (h : Memory.wf m = true) (hb : slotsDistinct b) :
    Kept (localWord d m b a v) := kept_ite (updPageWrite_kept _ _ _ _ _ h hb) ⟨writeWord_wf _ _ _ _ _ h, hb⟩

theorem hostWord_kept (d : Dev) (m : Mem) (b : Boot) (a : Nat) (v : Word) (h : Memory.wf m = true) (hb : slotsDistinct b) :
    Kept (hostWord d m b a v) := by
  unfold hostWord
  refine kept_ite ⟨h, hb⟩ (kept_ite (localWord_kept _ _ _ _ _ h hb) ?_)
  split
  · exact localWord_kept _ _ _ _ _ h hb
  · exact (⟨(localWord_kept _ _ _ _ _ h hb).1, (localWord_kept _ _ _ _ _ h hb).2⟩ : Kept (_, (localWord _ m b a v).2))
  · exact ⟨h, hb⟩

theorem hostBar2_wf (d : Dev) (m : Mem) (o : Nat) (bs : List Byte) (h : Memory.wf m = true) : Memory.wf (hostBar2 d m o bs).2 = true :=
  wf_ite _ _ h (wf_ite _ _ (barWrite_wf _ _ _ _ h) (barWrite_wf _ _ _ _ h))

theorem accessUp_kept (d : Dev) (m : Mem) (b : Boot) (x : HostAccess) (h : Memory.wf m = true) (hb : slotsDistinct b) :
    Kept (accessUp d m b x) := by
  unfold accessUp
  split
  · exact kept_ite (hostWord_kept _ _ _ _ _ h hb) ⟨h, hb⟩
  · exact kept_ite (hostWord_kept _ _ _ _ _ (hostWord_kept _ _ _ _ _ h hb).1 (hostWord_kept _ _ _ _ _ h hb).2) ⟨h, hb⟩
  · exact kept_ite ⟨h, hb⟩ ⟨h, hb⟩
  · exact kept_ite ⟨h, hb⟩ ⟨h, hb⟩
  · split
    · exact ⟨h, hb⟩
    · exact ⟨hostBar2_wf _ _ _ _ h, hb⟩
  · split
    · exact ⟨h, hb⟩
    · exact ⟨h, hb⟩

theorem accessBoot_kept (d : Dev) (m : Mem) (b : Boot) (x : HostAccess) (h : Memory.wf m = true) (hb : slotsDistinct b) :
    Kept (accessBoot d m b x) := by
  unfold accessBoot
  dsimp only
  split
  · exact kept_ite (kept_ite (localWord_kept _ _ _ _ _ h hb) ⟨h, hb⟩) ⟨h, hb⟩
  · exact kept_ite (kept_ite (localWord_kept _ _ _ _ _ (localWord_kept _ _ _ _ _ h hb).1 (localWord_kept _ _ _ _ _ h hb).2)
      ⟨h, hb⟩) ⟨h, hb⟩
  · exact kept_ite (accessUp_kept _ _ _ _ h hb) ⟨h, hb⟩
  · exact kept_ite (accessUp_kept _ _ _ _ h hb) ⟨h, hb⟩
  · exact kept_ite ⟨barWrite_wf _ _ _ _ h, hb⟩ ⟨h, hb⟩
  · exact ⟨h, hb⟩

theorem accessOnce_kept (d : Dev) (m : Mem) (b : Boot) (x : HostAccess) (h : Memory.wf m = true) (hb : slotsDistinct b) :
    Kept (accessOnce d m b x) := by
  unfold accessOnce
  split
  · exact kept_ite ⟨h, hb⟩ (accessUp_kept _ _ _ _ h hb)
  · exact ⟨h, hb⟩
  · exact accessBoot_kept _ _ _ _ h hb
  · exact kept_ite (accessBoot_kept _ _ _ _ h hb) ⟨h, hb⟩

theorem drainHeld_kept (r : Dev × Mem × Boot) (h : Kept r) : Kept (drainHeld r) := by
  unfold drainHeld
  refine kept_ite h ?_
  have hf : ∀ (xs : List HostAccess) (q : Dev × Mem × Boot), Kept q → Kept (xs.foldl (fun q x => accessOnce q.1 q.2.1 q.2.2 x) q) := by
    intro xs
    induction xs with
    | nil => exact fun q hq => hq
    | cons x xs ih => exact fun q hq => ih _ (accessOnce_kept _ _ _ _ hq.1 hq.2)
  exact hf _ _ h

/-- An access of the host keeps the memories and the slots. -/
theorem hostAccess_kept (d : Dev) (m : Mem) (b : Boot) (x : HostAccess) (h : Memory.wf m = true) (hb : slotsDistinct b) :
    Kept (hostAccess d m b x) := drainHeld_kept _ (accessOnce_kept _ _ _ _ h hb)

theorem wakeWith_kept (b : Boot) (r : Dev × Mem) (h : Memory.wf r.2 = true) (hb : slotsDistinct b) : Kept (wakeWith b r) :=
  drainHeld_kept _ ⟨h, hb⟩

theorem bulkWrites_kept (vs : List Word) (a : Nat) (r : Dev × Mem × Boot) (h : Kept r) : Kept (bulkWrites vs a r).1 := by
  induction vs generalizing a r with
  | nil => exact h
  | cons v vs ih =>
    unfold bulkWrites
    split
    · exact h
    · split
      · exact h
      · exact ih _ _ (hostWord_kept _ _ _ _ _ h.1 h.2)

theorem bulkWrite_kept (d : Dev) (m : Mem) (b : Boot) (tag : Nat) (ok : Bool) (h : Memory.wf m = true) (hb : slotsDistinct b) :
    Kept (bulkWrite d m b tag ok) := by
  unfold bulkWrite
  split
  · exact ⟨h, hb⟩
  · refine kept_ite ⟨h, hb⟩ (kept_ite ⟨h, hb⟩ (kept_ite ⟨h, hb⟩ ?_))
    have hq := fun vs a => bulkWrites_kept vs a (d, m, b) ⟨h, hb⟩
    exact drainHeld_kept _ ⟨(hq _ _).1, (hq _ _).2⟩

theorem bulkRead_wf (d : Dev) (m : Mem) (b : Boot) (tag : Nat) (ok : Bool) (h : Memory.wf m = true) :
    Memory.wf (bulkRead d m b tag ok).2 = true := by
  unfold bulkRead
  split
  · exact h
  · exact wf_ite _ _ h (wf_ite _ _ h (wf_ite _ _ h (wf_host_write _ _ _ h)))

/-! ### The rest -/

theorem statReady_wf (d : Dev) (m : Mem) (w x : Nat) (h : Memory.wf m = true) : Memory.wf (statReady d m w x).2 = true := by
  have hw : Memory.wf (statWrite d m w x).2.1 = true := by
    unfold statWrite
    dsimp only
    split
    · exact h
    · exact wf_tbl m _ h (twf_mwrite _ _ _ _ (twf_mwrite _ _ _ _ ((Memory.wf_iff m).mp h).2.2.1))
  unfold statReady
  dsimp only
  split
  · exact wf_ite _ _ (statDma_wf _ _ _ _ hw) hw
  · exact hw

theorem ageTurn_kept (d : Dev) (m : Mem) (b : Boot) (h : Memory.wf m = true) (hb : slotsDistinct b) : Kept (ageTurn d m b) := by
  refine ⟨?_, hb⟩
  unfold ageTurn
  dsimp only
  split
  · exact h
  · exact ageAppend_wf _ _ _ h

theorem updateMessage_kept (d : Dev) (m : Mem) (b : Boot) (bs : List Byte) (h : Memory.wf m = true) (hb : slotsDistinct b) :
    Kept (updateMessage d m b bs) := by
  unfold updateMessage
  dsimp only
  refine kept_ite ⟨h, hb⟩ (kept_ite ⟨h, hb⟩ ?_)
  split
  · exact openSess_kept _ _ _ _ h hb
  · exact ⟨writeSess_wf _ _ _ _ h, hb⟩
  · exact closeSess_kept _ _ _ _ h hb
  · exact ⟨h, hb⟩
  · exact activateImage_kept _ _ _ _ _ h hb
  · exact ⟨h, hb⟩
  · exact ⟨h, hb⟩

theorem takeFragment_kept (d : Dev) (m : Mem) (b : Boot) (ws : List Dword) (h : Memory.wf m = true) (hb : slotsDistinct b) :
    Kept (takeFragment d m b ws) :=
  kept_ite ⟨h, hb⟩ (kept_ite ⟨h, hb⟩ (kept_ite ⟨h, hb⟩ (updateMessage_kept _ _ _ _ h hb)))

theorem takePairFrame_kept (d : Dev) (m : Mem) (b : Boot) (ws : List Dword) (t : WireTime) (h : Memory.wf m = true)
    (hb : slotsDistinct b) : Kept (takePairFrame d m b ws t) := by
  unfold takePairFrame
  dsimp only
  split
  case h_4 => exact ⟨takeMirror_wf _ _ _ _ h, hb⟩
  case h_10 => exact takeFragment_kept _ _ _ _ h hb
  all_goals exact ⟨h, hb⟩

theorem handleFrame_kept (d : Dev) (m : Mem) (b : Boot) (p : Nat) (f : Frame) (t : WireTime) (h : Memory.wf m = true)
    (hb : slotsDistinct b) : Kept (handleFrame d m b p f t) :=
  kept_ite ⟨h, hb⟩ (kept_ite (takePairFrame_kept _ _ _ _ _ h hb) (kept_ite ⟨h, hb⟩ (kept_ite ⟨h, hb⟩ ⟨h, hb⟩)))

/-- A frame keeps the memories and the slots. -/
theorem frameArrive_kept (d : Dev) (m : Mem) (b : Boot) (p : Nat) (f : Frame) (w : Wire) (t : WireTime) (h : Memory.wf m = true)
    (hb : slotsDistinct b) : Kept (frameArrive d m b p f w t) :=
  kept_ite ⟨h, hb⟩ (kept_ite (handleFrame_kept _ _ _ _ _ _ h hb) ⟨h, hb⟩)

/-! ### The frames of commands -/

theorem runDev_inv (s t : State) (f : Dev → Dev) (h : s.Inv) (ht : runDev s f = .next t) : t.Inv := by
  unfold runDev at ht
  split at ht <;> cases ht
  · exact h
  · exact h

theorem runMem_inv (s t : State) (f : Dev → Mem → Dev × Mem) (hf : Memory.wf s.mem = true → Memory.wf (f s.dev s.mem).2 = true)
    (h : s.Inv) (ht : runMem s f = .next t) : t.Inv := by
  unfold runMem at ht
  split at ht <;> cases ht
  · exact ⟨hf h.1, h.2⟩
  · exact h

theorem sendDev_inv (s t : State) (f : Dev → Dev) (h : s.Inv) (ht : sendDev s f = .next t) : t.Inv := by
  unfold sendDev at ht
  split at ht <;> cases ht
  · exact h
  · exact h

theorem sendMem_inv (s t : State) (f : Dev → Mem → Dev × Mem) (hf : Memory.wf s.mem = true → Memory.wf (f s.dev s.mem).2 = true)
    (h : s.Inv) (ht : sendMem s f = .next t) : t.Inv := by
  unfold sendMem at ht
  split at ht <;> cases ht
  · exact ⟨hf h.1, h.2⟩
  · exact h

theorem anyDev_inv (s t : State) (f : Dev → Dev) (h : s.Inv) (ht : anyDev s f = .next t) : t.Inv := by
  cases ht
  exact h

theorem anyMem_inv (s t : State) (f : Dev → Mem → Dev × Mem) (hf : Memory.wf s.mem = true → Memory.wf (f s.dev s.mem).2 = true)
    (h : s.Inv) (ht : anyMem s f = .next t) : t.Inv := by
  cases ht
  exact ⟨hf h.1, h.2⟩

theorem anyState_inv (s t : State) (f : Dev → Mem → Boot → Dev × Mem × Boot) (hf : s.Inv → Kept (f s.dev s.mem s.boot))
    (h : s.Inv) (ht : anyState s f = .next t) : t.Inv := by
  cases ht
  exact hf h

end Sys2Proof.Machine
end

