-- ==== Sys2Proof/WellFormed.lean ====
section
/-! DEFINITION. What operands a command can carry: ranges the types alone do not say. -/

namespace Sys2Proof

/-- A time on the wire has less than a second of nanoseconds and a 16-bit fraction (R43). -/
def WireTime.wf (t : WireTime) : Bool := decide (t.ns < 1000000000) && decide (t.frac < 65536)

/-- A frame carries as many payload words as its LEN says (R451). -/
def Frame.wf (f : Frame) : Bool := decide (f.payload.length = f.len.toNat)

/-- An access of BAR2 has at least one byte; of BAR0, R667 answers an access of any alignment. -/
def HostAccess.wf (a : HostAccess) : Bool :=
  match a with
  | .bar2Write _ bs => decide (bs ≠ [])
  | .bar2Read _ len => decide (len ≠ 0)
  | _ => true

/-- The operands of a command are ones the part can be given. -/
def Instr.wf (i : Instr) : Bool :=
  match i with
  | .encoderEdge _ _ _ samples => decide (0 < samples)
  | .registerWrite a => a.wf
  | .frameReceive _ f _ => f.wf
  | .nak _ f => f.wf
  | .credit _ f => f.wf
  | .hello _ f => f.wf
  | .assign _ f => f.wf
  | .sync _ f t => f.wf && t.wf
  | .pdelayResp _ f t => f.wf && t.wf
  | _ => true

end Sys2Proof
end

