-- ==== Sys2Proof/Tests/Slice0.lean ====
section
/-!
SUPPORT. Tests: ill-formed terms that each check refuses, single steps whose results the specification or a published
standard gives, and for every obligation with hypotheses a state and operands that meet them (`test_meets_…`). A theorem's
clauses stand in the order of its obligation's.
-/

namespace Sys2Proof.Tests

open Sys2Proof.Machine

/-- The part after reset. -/
def fresh : Dev := State.reset.dev

/-- The part after reset, with these registers. -/
def withRegs (l : List (Nat × Word)) : Dev := { fresh with regs := l }

/-- The part after reset, with these values in force. -/
def withForce (l : List (Nat × Word)) : Dev := { fresh with force := l }

/-- Slot `c`, fed by row 0, drives consumer `target` (R545 to R548). -/
def wired (c : Nat) (target : Word) : List (Nat × Word) :=
  [(wkrA (0x300 + 0x10 * c), 1), (wkrA (0x900 + 4 * c), target)]

/-- A link-control frame with this payload. -/
def control (ws : List Dword) : Frame := linkFrame fresh ws

/-! ## Well-formedness: each check refuses a term -/

theorem test_wf_refuses_no_samples : (Instr.encoderEdge 0 true false 0).wf = false := by decide

theorem test_wf_refuses_empty_access :
    (Instr.registerWrite (.bar2Write 0 [])).wf = false ∧ (Instr.registerWrite (.bar2Read 0 0)).wf = false := by decide

theorem test_wf_refuses_wire_time :
    WireTime.wf { sec := 0, ns := 1000000000, frac := 0 } = false ∧ WireTime.wf { sec := 0, ns := 0, frac := 65536 } = false := by
  decide

/-- A frame whose LEN says one word more than it carries. -/
def shortFrame : Frame := { control [0] with len := 2 }

theorem test_wf_refuses_short_frames :
    [Instr.frameReceive 0 shortFrame { crcOk := true, blockError := false }, .nak 0 shortFrame, .credit 0 shortFrame,
      .hello 0 shortFrame, .assign 0 shortFrame, .sync 0 shortFrame { sec := 0, ns := 0, frac := 0 },
      .pdelayResp 0 shortFrame { sec := 0, ns := 0, frac := 0 }].map Instr.wf = List.replicate 7 false := by decide +kernel

theorem test_wf_refuses_late_sync : (Instr.sync 0 (control [0]) { sec := 0, ns := 1000000000, frac := 0 }).wf = false := by
  decide +kernel

/-! ## Single steps -/

/-- The table gives no command any bits, so no word spells one. -/
theorem test_no_word_decodes : decodeTableWord 32 0x12345678 = none := by decide

/-- The part after one step from reset with these commands waiting. -/
def after (is : List Instr) : Option State :=
  match step { State.reset with pending := is } with
  | .next t => some t
  | _ => none

/-- The front command is carried out first, and the other still waits. -/
theorem test_front_first :
    (after [.gpioMessage 15 5, .gpioMessage 15 6]).map (fun t => (rf t.dev (ra (pgSkein 15) 0x120) 3 0, t.pending)) =
      some (5, [.gpioMessage 15 6]) := by decide +kernel

/-- An idle step passes one edge of the control clock. -/
theorem test_idle_edge : (after []).map (fun t => t.dev.cycle) = some 1 := by decide +kernel

/-- A read of an unmapped page returns all ones and is counted (R667). -/
theorem test_unmapped_read :
    (after [.registerWrite (.bar0Read 0xFFF000)]).map (fun t => (t.dev.out, reg t.dev (ra pgDev 0x110))) =
      some ([.readAnswer false 0xFFF000 [0xFF, 0xFF, 0xFF, 0xFF]], 1) := by decide +kernel

/-- A maximum below the floor is stored as the floor (R494). -/
theorem test_slew_floor :
    (after [.registerWrite (.bar0Write (timeA 0x11C) 1 0xF)]).map (fun t =>
      (rf t.dev (timeA 0x11C) 21 0, rb t.dev (timeA 0x104) 28)) = some (10738, true) := by decide +kernel

/-- A lost rail holds the part in reset (R677). -/
theorem test_rail_loss : (after [.supplyRailLoss 11]).map (fun t => t.dev.life) = some (.held 3) := by decide +kernel

/-- A parity error's detail names context B, wale 3, rand 2 and weaver 1 (R72). -/
theorem test_parity_detail :
    (after [.weaverParity true 3 2 1 true]).map (fun t => t.dev.errIn.map (fun e => (e.code, e.sev, e.detail))) =
      some [(0x11, 2, 0x1321)] := by decide +kernel

/-- The check value of CRC-32C over the nine digits. -/
theorem test_crc32c : crc32c [0x31, 0x32, 0x33, 0x34, 0x35, 0x36, 0x37, 0x38, 0x39] = 0xE3069283 := by decide +kernel

/-- SHA-384 of "abc" (FIPS 180-4). -/
theorem test_sha384 : sha384 [0x61, 0x62, 0x63] =
    0xCB00753F45A35E8BB5A03D699AC65007272C32AB0EDED1631A8B605A43FF5BED8086072BA1E7CC2358BAECA134C825A7 := by decide +kernel

/-! ## What the statements suppose -/

/-! ### An image that passes every check (R632, R633) -/

/-- An image of 608 bytes, least significant first: two empty sections, signed under a key of 1. -/
def imageBytes : List Byte := leBytes 608
  0x32e3c4190253ab319a8400fbd221be8c0e0c140f9eed96fda3749b3a981281909eed34be3a1eb3ec4b7342225149c0e2b70a7672385e543a6c2955bf5df20255382a5482e041f759989ba78b623b1d6e74ad20f31ec7b18e37058bbe22ca87aa0000000000000000000000000000000000000000000000000000000000000000000000000000000000000000000000000000000000000000000000000000000000000000000000000000000000000000000000000000000000000000000000000000000000000000000000000000000000000000000000000000000000000000000000000000000000000000000000000000000000000000000000000000000000000000000000000000000000000000000000000000000000000000000000000000000000000000000000000000000000000000000000000000000000000000000000000000000000000200000000030000000000000000000002000000000100000000000000000000000000000000000000000000000000000000000000005f0eea907c1d437a9d817e1dceb1600ac0b8f0b51331dae97c149a28bd1df4f829dc9292bf989e5d6f2c26964ade1736b70a7672385e543a6c2955bf5df20255382a5482e041f759989ba78b623b1d6e74ad20f31ec7b18e37058bbe22ca87aa0000000000000000000000000000000000000000000000000000000000000000000000000000000000000000000000000000000000000000000000000000000000000000000000000000000000000000000000000000000000000000000000000000000000000000000000000000020000000000000000020000026000017d5b

/-- A memory that lists these bytes from an address up. -/
def cellsFrom : Nat → List Byte → List (Nat × Byte)
  | _, [] => []
  | a, b :: bs => (a, b) :: cellsFrom (a + 1) bs

theorem mread_skip (f : Nat → Byte) (m : List (Nat × Byte)) (b : Byte) (c n : Nat) :
    ∀ a, c < a → mread f ((c, b) :: m) a n = mread f m a n := by
  intro a ha
  unfold mread
  refine List.map_congr_left fun i _ => ?_
  show (if a + i = c then b else tget f m (a + i)) = _
  rw [if_neg (by omega)]

theorem mread_cellsFrom (f : Nat → Byte) (bs : List Byte) (a : Nat) : mread f (cellsFrom a bs) a bs.length = bs := by
  induction bs generalizing a with
  | nil => rfl
  | cons b r ih =>
    have h : mread f (cellsFrom a (b :: r)) a (b :: r).length = b :: mread f (cellsFrom a (b :: r)) (a + 1) r.length := by
      unfold mread
      simp only [List.length_cons, List.range_succ_eq_map, List.map_cons, List.map_map]
      refine congr (congrArg _ (by simp [cellsFrom, tget])) (List.map_congr_left fun i _ => ?_)
      simp only [Function.comp]
      congr 1
      omega
    rw [h]
    congr 1
    exact (mread_skip f _ b a r.length (a + 1) (by omega)).trans (ih (a + 1))

/-- The memories after reset with that image in the staging slot. -/
def imageMem : Mem := { State.reset.mem with flash := cellsFrom (slotBase 2) imageBytes }

/-- What outlives a reset, with the hash of that image's key in the fuses. -/
def imageBoot : Boot := { State.reset.boot with keyHash := [(0, 0xa19d4db171b582eb8052b0cfe555e17894aa22d1c8a9770950697dd8f796d2fa4bf0a56ad80006b7ea08e1191f814b65)] }

theorem image_read : readImage imageMem 2 = { bytes := imageBytes } := by
  have h : flashRead imageMem (slotBase 2 + 4) 4 = (imageBytes.drop 4).take 4 := by decide +kernel
  have hn : Nat.max 512 (Nat.min (ofLeBytes ((imageBytes.drop 4).take 4)) slotSize) = imageBytes.length := by decide +kernel
  unfold readImage
  rw [h]
  dsimp only
  rw [hn]
  exact congrArg Img.mk (mread_cellsFrom flashByte imageBytes (slotBase 2))

theorem image_ok : stagedFault imageBoot { bytes := imageBytes } = none := by decide +kernel

/-- CLOSE has an image to accept (R633): `imageBytes`, under the key whose hash the fuses hold. -/
theorem test_meets_close_of_a_good_image : stagedFault imageBoot (readImage imageMem imageBoot.staging) = none := by
  rw [show imageBoot.staging = 2 from rfl, image_read]
  exact image_ok

/-! ### The commands complete -/

theorem test_meets_EncoderCommandsComplete :
    let m := State.reset.mem
    let b := State.reset.boot
    fresh.life = .up ∧
    (let d := { withForce [(cmpA 0 0, 0x80000000)] with cmp := [(0, { due := some 0 })] };
      (cmpu d 0).due = some 0 ∧ (cmpu (elapse d m b 0) 0).due = some 0 ∧ cmpOn (elapse d m b 0).force 0 = true) ∧
    (let d := { fresh with cmp := [(23, { lateWait := true, tFire := some 0 })] };
      let e := elapse d m b (((cmpu d 23).tFire.getD 0) + ff d (cmpA 23 0) 15 0)
      (cmpu d 23).lateWait = true ∧ (cmpu e 23).lateWait = true ∧ tooSoon e 23 = false) ∧
    (let d := withForce [(trgA 15 0, 0x08000000)];
      ff d (trgA 15 0) 28 27 = 1 ∧ ff (elapse d m b (tat d.trg 15).timerAt) (trgA 15 0) 28 27 = 1) ∧
    (let d := { withRegs (wired 95 16) with force := [(trgA 15 0, 0x10000000)] };
      let r := slotEdge d 95 16 (targetBusy d 16)
      r.2 = true ∧ trigByWicker (elapse r.1 m b (r.1.cycle + 2)) 15 = true) ∧
    (ench fresh 5).los = false ∧
    (let d := { withForce [(encA 5 0x100, 0x80000000)] with enc := [(5, { failRun := 31 })] };
      counting d 5 = true ∧ ff d (encA 5 0x140) 4 0 ≤ (ench d 5).failRun ∧ (ench d 5).stale = false) ∧
    (let d := withForce [(encA 3 0x100, 0x80000000)]; encOn d 3 = true ∧ idxGate d 3 = true) ∧
    (let d := { fresh with enc := [(0, { corr := some (-1), corrDue := some 0 })] };
      (ench d 0).corr = some (-1) ∧ (ench d 0).corrDue = some 0) ∧
    (let d := { withForce [(encA 0 0x150, 0x80000000), (encA 0 0x100, 0x80000000)] with cycle := 0 };
      fb d (encA 0 0x150) 31 = true ∧ encOn d 0 = true ∧ fb d (encA 0 0x150) 29 = false) ∧
    (let d := withRegs ((encA 0 0x180, 1) :: wired 32 0x020);
      (slotEdge d 32 0x020 (targetBusy d 0x020)).2 = true ∧ rb d (encA 0 0x180) 0 = true) ∧
    (ench { fresh with enc := [(5, { los := true })] } 5).los = true := by decide +kernel

theorem test_meets_CameraCommandsComplete :
    let m := State.reset.mem
    let b := State.reset.boot
    let on := fun (p : SkeinPort) => { fresh with skein := [(0, p)] }
    fresh.life = .up ∧ fresh.stopped = false ∧ (tat (skp fresh 15).lanes 5).locked = false ∧
    (tat (skp (on { lanes := [(0, { locked := true })] }) 0).lanes 0).locked = true ∧
    (let d := on { linkUp := true }; (skp d 0).linkUp = true ∧ (skp d 0).hdr = none) ∧
    earliest ((waitingSlots (skp (on { slots := [{}] }) 0)).map (fun z => z.winHi)) = some 0 ∧
    earliest (((skp (on { slots := [{ started := true }] }) 0).slots.filter runsOut).map (fun z => z.deadline)) = some 0 ∧
    (let d := on { slots := [{ bad := [(0, 0)] }] };
      (earliest (((skp d 0).slots.filter pendingLine).map (lineExpiry d 0))).isSome = true ∧ (skp d 0).hdr = none) ∧
    (let d := { on { lastStart := some 0 } with
        force := [(trgA 0 0, 0x18000000), (ra (pgSkein 0) 0x100, 0x80000000), (ra (pgSkein 0) 0x114, 0)] };
      let e := elapse d m b (0 + wdTime d.force 0)
      (skp d 0).lastStart = some 0 ∧ freeRuns d 0 = true ∧ portOn d.force 0 = true ∧ (skp d 0).stalled = false ∧
        freeRuns e 0 = true ∧ portOn e.force 0 = true ∧ (skp e 0).stalled = false ∧ (skp e 0).lastStart = some 0) ∧
    (let d := withForce [(ra (pgSkein 15) 0x100, 0x01000000)];
      (skp d 15).gpOut.testBit 3 ≠ true ∧ txOn (setSkp d 15 { (skp d 15) with gpOut := 8 }) 15 = true) ∧
    (laneTbl fresh (.fabric 4 3)).2.contains (laneAt (.fabric 4 3)).2 = false ∧ throttleStep fresh = 0 ∧
    (laneTbl (on { scans := [5] }) (.skein 0 5)).2.head? = some (laneAt (.skein 0 5)).2 := by decide +kernel

theorem test_meets_WaleCommandsComplete :
    let wale := fun (w : WaleSt) f => ({ fresh with wale := [(31, w)], force := f } : Dev)
    let own := [(ra (pgIn 15) 0x100, (0x80000000 : Word))]
    fresh.life = .up ∧ fresh.stopped = false ∧
    (let d := { withForce own with skein := [(0, { ready := [{}] })] };
      takeCtx d 15 1 = 1 ∧ portOfCtx d.force 15 1 = some 0 ∧ (skp d 0).ready = [{}] ∧ stopCause d 15 = none) ∧
    (let d := wale { lines := List.replicate 5 {} } own;
      let l := (wst d 15 1).lines.getD 0 default
      nextAligned d 15 1 = some 0 ∧ portOfCtx (forceOf d l.stamp.ver) 15 1 = some 0) ∧
    (wst (wale { statDone := [{}] } []) 15 1).statDone = [{}] ∧
    (let d := { withForce [(ra (pgIn 0) 0x100, 0), (ra (pgSkein 0) 0x100, 0x80000000), (ra pgPos 0x200, 0x00080001)] with
        refLines := [(0, some {})] };
      nextContrib d 0 0 = some (0, {})) ∧
    (let d := wale { stag := [{}] } [(cx (pgGeom 15) 1 0x100, 0x00200000)];
      let hold := vf (forceOf d 0) (cx (pgGeom 15) 1 0x118) 19 0
      (wst d 15 1).stag.getLast? = some {} ∧ vb (forceOf d 0) (cx (pgGeom 15) 1 0x100) 21 = true ∧ hold ≤ 0 ∧
        (wst d 15 1).window.getLast? = none) ∧
    (let d := { withForce [(ra (pgIn 0) 0x100, 0), (ra (pgSkein 0) 0x100, 0x80000000), (ra pgPos 0x200, 0x00080001)] with
        refLines := [(0, some {})], wale := [(0, { contribs := [{}] })] };
      nextRelease d 0 = some (0, some {}) ∧ releaseReady d 0 (0, some {}) = true) ∧
    (firstTimeout { fresh with stn := [(7, { first := [(0, 0)] })] } 7).isSome = true ∧
    (let d := { fresh with seg := [(31, { pend := [{}] })] };
      (sgs d 15 1).pend = [{}] ∧ formReady d 15 1 {} [] = true) ∧
    (let d := { fresh with seg := [(31, { hist := [{ n := 255 }], block := some 0 })] };
      lastThresholded d 15 1 = some 255 ∧ (sgs d 15 1).block = some (255 / 256)) := by decide +kernel

theorem test_meets_TrackerCommandsComplete :
    let nodes : Tbl Word := [(ra pgTrk 0x160, 0x45050000)]
    let two : Tracker := { handles := [(1, .resident {}), (2, .resident {})] }
    let ws : List Dword := [0, 0, 0x200002]
    (nextTracked { fresh with rods := [{ station := 7 }] } 7).isSome = true ∧
    (let d := { fresh with rods := [{}], trk := { handles := [(1, .parked 0 {}), (2, .resident {})], joins := [(1, 2)] } };
      needsCoil d 1 = some 0) ∧
    seamSide (withForce nodes) 5 [0] = some true ∧ seamSide { withForce nodes with force := [(ra pgTrk 0x160, 0x89000000)] } 9
      [0x100000000000000] = some false ∧
    (let d := { withForce nodes with trk := two };
      seamSide d 5 ws = some true ∧ resolve d (dfld (dwAt ws 2) 41 21) = some 1 ∧ resolve d (dfld (dwAt ws 2) 20 0) = some 2) ∧
    overdue { fresh with trk := { stns := [(0, { last := some 65535 })], right := { own := [{}] } } } true = true ∧
    overdue { fresh with trk := { stns := [(0, { last := some 65535 })], left := { own := [{}] } } } false = true ∧
    (trkStn { fresh with trk := { stns := [(7, { last := some 0 })] } } 7).last = some 0 := by decide +kernel

theorem test_meets_BorderCommandsComplete :
    let up : Tbl Word := [(destA 1 0, 0x80000000), (destA 2 0, 0x80000000), (destA 2 0x2C, 1)]
    let eth := { withRegs up with ethUp := [0, 1] }
    let x : List Byte := [0x1F, 0x7B, 1, 0, 0, 4, 0, 0, 0, 0, 0, 0, 0, 0, 0, 0]
    (let d := { withRegs [(ra pgBorder 0x100, 0x80000000)] with bin := { notes := [{}] } };
      rb d (ra pgBorder 0x100) 31 = true ∧ d.border.stopped = false ∧ joinWaits d = false ∧ d.bin.notes = [{}]) ∧
    (let r : StoreRec := { body := { w0 := 0x1000000000000000 } };
      let d := { withRegs [(destA 0 0, 0x84000000), (ringA 0 8, 0x8000000A)] with border := { store := [r] } }
      destOn d 0 = true ∧ destRoom d 0 = true ∧ pairMuted d = false ∧ (dest d 0).miss = [] ∧
        (scanStore d 0 (d.border.store.drop 0) 0).2.1 = some r ∧ gated d r = false ∧ unreadable d 0 = false) ∧
    refineDue { fresh with border := { store := [{ due := some 0 }] } } = some 0 ∧
    (let d := { fresh with border := { patches := [{}] }, stn := [(0, { next := 1024 })] };
      let mg := fld (reg d (ra pgBorder 0x160)) 26 18
      (cutExtent (0 - mg) (0 + mg) 0 0).2.1 < (tat d.stn 0).next) ∧
    (let d := { eth with border := { dests := [(2, { queue := [{}] })] } };
      mayStream d 2 = true ∧ (datagramDue d 2).isSome = true ∧ (dest d 2).resend = none) ∧
    mayStream eth 2 = true ∧ rf eth (destA 2 0x2C) 15 0 ≠ 0 ∧
    (mayStream eth 1 = true ∧ x.length = 16 ∧ ofLeBytes (x.take 3) = 0x017B1F ∧ ofLeBytes ((x.drop 4).take 2) = 1024 ∧
      (dest eth 1).resend = none) ∧
    (tget (fun _ => ((0, 0) : Nat × Nat)) ({ fresh with hif := { coal := [(3, (1, 0))] } } : Dev).hif.coal 3).1 ≠ 0 ∧
    ({ fresh with ethUp := [0] } : Dev).ethUp.contains 1 = false := by decide +kernel

/-- The part after reset with one command of the submission ring, which may start. -/
def commanded (ws : List Dword) : Dev := { fresh with hif := { cmds := [{ words := ws, go := true }] } }

theorem test_meets_HostInterfaceCommandsComplete :
    (let d := withRegs [(ringA 3 8, 0x8000000A), (ringA 3 12, 1)];
      ringOn d 3 = true ∧ ringUsed d 3 ≠ 0 ∧ d.hif.cmds.length < 512 ∧ cmdOf (ringFull (wrapBy d (ringA 3 16) 31 0 1) 3) 0 = none) ∧
    (let d := { fresh with hif := { cmds := [{ tag := 3, fin := some {} }, { tag := 511 }] } };
      cmdOf d 511 = some { tag := 511 } ∧ (cmdsBefore d 511).all (fun k => k.fin.isSome) = true) ∧
    (startable (commanded []) 0 0).isSome = true ∧
    (let d := commanded [1]; (startable d 0 1).isSome = true ∧ d.restart = false ∧ (startable d 0 1).all (fun c => bulkOffset c % 4 == 0) = true) ∧
    (let d := commanded [2, 0, 4, 0x100000004];
      (startable d 0 2).isSome = true ∧
        (startable d 0 2).all (fun c => bulkOffset c % 4 == 0 && decide (4 * bulkCount c ≤ c.room)) = true) ∧
    (startable (commanded [0x10]) 0 0x10).isSome = true ∧ (startable (commanded [0x11]) 0 0x11).isSome = true ∧
    (let ws : List Dword := [0x20, 0, 64, 0, 0xF0000000001, 0, 0, 0];
      let d := { commanded ws with
        wale := [(0, { hNext := 1, hBusy := [{ rows := [({}, false)] }] })]
        force := [(ra (pgIn 15) 0x100, 0x40000000), (ra pgTrk 0x200, 0x80000000), (segA 15 0 0x100, 0x80000000),
          (histA 0 0, 0x80000000)] }
      (startable d 0 0x20).isSome = true ∧ (d.jobq ++ runningJobs d).any (fun j => decide (j.tag = 0)) = false ∧
        jobCheck d ws = none) ∧
    (let d := { withRegs [(ringA 4 8, 0x8000000A)] with hif := { cmds := [{}], finished := [0] } };
      d.hif.finished = [0] ∧ cmdOf d 0 = some {} ∧ ringRoom d 4 = true) ∧
    (jobFinish { fresh with jobs := [(3, some { ovr := true, room := 64 })] } State.reset.mem 3).isSome = true := by decide +kernel

theorem test_meets_MemoryCommandsComplete :
    (let d := { fresh with wale := [(31, { chunks := [{}] })] }; (wst d (31 / 2) (31 % 2)).chunks = [{}]) ∧
    (let d := { fresh with jobs := (List.range 3).map (fun k => (k, some {})), jobq := [{ stn := 7, tgt := 15, src := 31 }] };
      (List.range 4).find? (fun i => (tat d.jobs i).isNone) = some 3 ∧ (pickJob d [] d.jobq).isSome = true ∧ throttleStep d = 0 ∧
        d.restart = false) ∧
    (let d := { fresh with jobs := [(3, some {})] };
      tat d.jobs 3 = some {} ∧ d.paused.contains (d.pos.sysLine / 256) = false) ∧
    (let d := { withRegs [(ra pgLpx 0x108, 4)] with force := [(ra pgLpx 0x244, 0x00010001)] };
      rb d (ra pgLpx 0x104) 31 = false ∧ 2 ≠ lpxPoint d ∧ pointOk d 2 = true) ∧
    (let d := withRegs [(ra pgLpx 0x100, 0x40000000)];
      rb d (ra (pgLpxCh 15) 0x100) 27 = false ∧ 1 < lpxRanks d ∧ inPayback (lpc d 15) 1 = false ∧
        (lpc d 15).refusing.contains 1 = false) ∧
    tat (lpc { fresh with lpxch := [(15, { windows := [(1, some 0)] })] } 15).windows 1 = some 0 := by decide +kernel

theorem test_meets_FabricLinkCommandsComplete :
    let m := State.reset.mem
    let b := State.reset.boot
    let up : Tbl Word := [(fabStatA 4, 0x80000000)]
    let port := fun (x : FabPort) => { withRegs up with fab := [(4, x)] }
    let q : QFrame := { f := control [0], arr := none, uid := 0 }
    (rb fresh (fabCfgA 4) 31 = false ∧ bitOf 0x80000000 31 = true ∧ portHeld (setReg fresh (fabCfgA 4) 0x80000000) 4 = false) ∧
    (let d := withRegs [(fabStatA 4, 0x40000000)];
      rb d (fabStatA 4) 30 = true ∧ rb d (fabStatA 4) 31 = false ∧ linkLanes (15 &&& 15) (rb d (fabCfgA 4) 30) ≠ []) ∧
    (linkLanes (8 &&& 15) (rb (withRegs [(fabCfgA 0, 0x40000000)]) (fabCfgA 0) 30) ≠ []) ∧
    fabUp (withRegs up) 4 = true ∧
    (let d := port { ackAt := some 0 }; (fbp d 4).ackAt = some 0 ∧ (fbp (elapse d m b 80) 4).ackAt.isSome = true) ∧
    (fbp (port { replay := [q] }) 4).replay ≠ [] ∧
    (let d := port { nakFor := some 0 }; (fbp d 4).nakFor = some (fbp d 4).rxSeq) ∧
    fabOn (withRegs [(ra pgFab 0x100, 0xC0000000)]) = true ∧ rb (withRegs [(ra pgFab 0x100, 0xC0000000)]) (ra pgFab 0x100) 30 = true ∧
    (let d := { fresh with node := { seen := [{ serial := 1 }, { serial := 2, idValid := true, id := 63 }] } };
      d.node.seen.find? (fun n => decide (n.serial = 1)) = some { serial := 1 } ∧
        d.node.seen.find? (fun n => decide (n.serial = 2)) = some { serial := 2, idValid := true, id := 63 }) ∧
    ({ fresh with node := { leader := true } } : Dev).node.leader = true ∧ rb fresh (ra pgFab 0x100) 28 = false ∧
    (let d := { fresh with fab := [(0, { held := [q] })] }; fabUp d 0 = false ∧ (fbp d 0).held ≠ []) := by decide +kernel

theorem test_meets_FrameCommandsComplete :
    let d := withRegs [(fabStatA 4, 0x80000000)]
    let g := fun (w : Dword) => { control [w, 0, 0, 0] with cls := 4 }
    let whole : Wire := { crcOk := true, blockError := false }
    let ws : List Dword := [0x1000000000000000, 0x2000000000000000, 0x3000000000000000, 0x4000000000000000]
    fabUp d 4 = true ∧
    ws.map (fun w => ((linkAccept d 4 (control [w]) whole).2, (control [w]).cls, kindOf (control [w]).payload)) =
      [(true, 0, 1), (true, 0, 2), (true, 0, 3), (true, 0, 4)] ∧
    [(0 : Dword), 0x2000000000000000].map (fun w => ((linkAccept d 4 (g w) whole).2, (g w).cls, kindOf (g w).payload)) =
      [(true, 4, 0), (true, 4, 2)] := by decide +kernel

theorem test_meets_FabricNodeCommandsComplete :
    let m := State.reset.mem
    let b := State.reset.boot
    let master := withRegs [(ra pgFab 0x100, 0xA0004000), (ra pgFab 0x104, 0x80000000), (fabStatA 4, 0x80000000)]
    let far := withForce [(ra pgPos 0x100, 0x80000000)]
    let relay := fun (w : Word) (x : RelaySt) => ({ withRegs [(relayCfgA 1, w)] with node := { relays := [(1, x)] } } : Dev)
    let ws : List Dword := [0, 0, 1, 0, 1]
    (isMaster master = true ∧ remoteRef master = false) ∧
    (let e := { far with node := { far.node with refHeard := far.cycle } };
      remoteRef far = true ∧ fromMaster far 63 = true ∧ kindOf ws = 0 ∧
        (waitCycles e ((refTime ws : Int) + refDelay e)).isSome = true) ∧
    (let d := { fresh with node := { waits := [{}] } };
      firstWait d.node.waits = some {} ∧ (elapse d m b 0).pos.sysLine ≤ (dwAt [] 1).toNat) ∧
    (let e := elapse far m b (far.node.refHeard + refLoss far);
      remoteRef e = true ∧ rb e (ra pgFab 0x104) 26 = false) ∧
    (let d := relay 0xC0000000 {};
      relayOut d 1 = true ∧ relayOut (elapse d m b (tat d.node.relays 1).nextPub) 1 = true) ∧
    (let d := relay 0xBF000000 {};
      relayIn d 1 = true ∧ rf d (relayCfgA 1) 29 24 = 63 ∧
        (waitCycles d (sampleTime d (dwAt ws 2) + refDelay d)).isSome = true) ∧
    (let d := relay 0x80000000 { waits := [{}] };
      firstWait (tat d.node.relays 1).waits = some {} ∧
        relayIn (elapse d m b 0) 1 = true) ∧
    rb master (ra pgFab 0x100) 14 = true ∧ fabUp master 4 = true ∧
    (({ fresh with node := { own := some { id := 7 } } } : Dev).node.own = some { id := 7 } ∧ dfld (dwAt [7] 0) 31 0 = 7) ∧
    (coll fresh 63).last = none ∧ rf (withRegs [(destA 3 0, 0x3F)]) (destA 3 0) 5 0 = 63 ∧
    (let d := { fresh with node := { collect := [(63, { last := some 0, unacked := 64 })] } };
      let c := coll (elapse d m b 0) 63
      ackDue (coll d 63) = some 0 ∧ c.last = some 0 ∧ c.unacked ≠ 0) ∧
    dest3Waits { withRegs [(destA 3 0, 0x80000000)] with border := { dests := [(3, { sent := 1 })] } } = true := by decide +kernel

theorem test_meets_TimeCommandsComplete :
    let m := State.reset.mem
    let b := State.reset.boot
    let server := fun (w : Word) => { withRegs [(ptpA 0x100, w), (ptpA 0x104, 0xFF)] with
      ethUp := [0, 1], ptp := { best := some { ident := 9 }, reqAt := some 0, sync := some (0, 0) } }
    let client := server 0xB0000000
    (timeRoom fresh fresh.time.adj).toNat ≠ 0 ∧ stepAllowed fresh false = true ∧
    stepAllowed { fresh with time := { valid := true } } true = true ∧
    (let d := withRegs [(timeA 0x100, 0x40000001)];
      timeSource d = 1 ∧ rf d (timeA 0x100) 29 0 = 1 ∧ 1 < Int.natAbs (-2) ∧ stepAllowed d false = true) ∧
    (ptpListens client 1 = true ∧ ptpDomain client 0 = true ∧ (bestMaster client).map (fun z => z.ident) = some 9) ∧
    ptpRole (server 0xC0000000) 2 = true ∧ ptpDomain (server 0xC0000000) 0 = true ∧
    (let d := withRegs [(timeA 0x100, 0x40000000)];
      let e := elapse d m b (srcLostAt d)
      timeSource e ≠ 0 ∧ rb e (timeA 0x104) 26 = false) ∧
    (let d := server 0x08000000;
      rb d (ptpA 0x100) 27 = true ∧ d.ethUp.contains 0 = true ∧
        0 + latIngress d 1 + latEgress d 0 ≤ 10000 * 65536) ∧
    (ptpRole client 1 = true ∧ client.ethUp.contains (Bool.toNat (rb client (ptpA 0x100) 28)) = true ∧
      (bestMaster client).isSome = true) ∧
    client.ptp.reqAt = some 0 ∧ client.ptp.sync = some (0, 0) := by decide +kernel

/-- A part of a Pairing in state `st`. -/
def paired (st : Word) (p : PairSt) : Dev :=
  { withRegs [(pairA 0x100, 0x88000000), (pairA 0x104, st <<< 29), (pairA 0x10C, 64), (ra pgFab 0x100, 0x8000)] with pair := p }

theorem test_meets_PairingCommandsComplete :
    let join : List Dword := [0x0100000000000000]
    ({ fresh with pair := { claimAt := some 0 } } : Dev).pair.claimAt = some 0 ∧
    ({ fresh with pair := { claimed := some 0 } } : Dev).pair.claimed = some 0 ∧
    [2, 3, 6].map (fun k => standby (paired k {})) = [true, true, true] ∧
    [1, 4, 5].map (fun k => pairActive (paired k {})) = [true, true, true] ∧
    (let d := paired 4 { okIn := true };
      pairEn d = true ∧ rb d (pairA 0x100) 27 = true ∧ d.pair.okIn = true ∧ pairState d = 4) ∧
    (let d := paired 4 { encDiff := 1 }; checkDiff d ≠ d.pair.encDiff) ∧
    (let d := { paired 4 {} with pos := { sysLine := 255 } };
      lastBlock d = some 0 ∧ d.pair.digests.any (fun g => decide (0 ≤ g.block)) = false) ∧
    (let d := { paired 4 { digests := [{}] } with pos := { sysLine := 767 } };
      (d.pair.digests.find? (fun g => decide (256 * (g.block + 3) ≤ d.pos.sysLine + 1))).isSome = true) ∧
    (let d := paired 4 {}; d.pos.sysLine + 64 ≤ reg64 d (pairA 0x10C)) ∧
    (let d := paired 3 { swap := some (0, 1, 1) };
      d.pair.swap = some (0, 1, 1) ∧ d.pos.sysLine % 256 = 0 ∧ pairEn d = true ∧ pairState d = 3) ∧
    (pairState (paired 2 {}) = 2 ∧ pairState (paired 6 {}) = 6) ∧
    timeKind (pairHeard (paired 4 {})) 4 [1] = 1 ∧
    (dfld (dwAt join 0) 59 56 = 1 ∧ pairState (pairHeard (paired 2 {})) = 2) ∧
    (dfld (dwAt [1040] 0) 31 16 = 0 ∧ dfld (dwAt [1040] 0) 15 0 ≤ 1040) := by decide +kernel

theorem test_meets_WickerCommandsComplete :
    let m := State.reset.mem
    let b := State.reset.boot
    codeKnown 0xFFFF = true ∧ codeKnown 0x1049 = true ∧
    (isRouting 0x8FC = true ∧ isCellCfg 0x8FC = false ∧ wkrLoops (setReg fresh (wkrA 0x8FC) 0xFFFFFFFF) = false) ∧
    (isRouting 0xCF4 = true ∧ isCellCfg 0xCF4 = false ∧ wkrLoops (setReg fresh (wkrA 0xCF4) 0) = false) ∧
    (isCellCfg 0xCF0 = true ∧ fld (0x80000 : Word) 19 17 ≤ 4 ∧ wkrLoops (setReg fresh (wkrA 0xCF0) 0) = false) ∧
    (let d := withRegs [(wkrA (0xA80 + 8 * 15), 0x80000000)];
      rb d (wkrA (0xA80 + 8 * 15)) 31 = true ∧ within10 d (tat d.wkr.groupAt 15) = false ∧ rb d (wkrA 0x104) 15 = true) ∧
    (let d := withRegs [(wkrA (0xA80 + 8 * 15), 0x80000000), (wkrA 0x104, 0)]; rb d (wkrA 0x104) 15 = false) ∧
    (let e := setBalls (withRegs [(wkrA (0xB00 + 0x10 * 31), 0x10000)]) 255;
      bitOf (cellCfg e 31) 16 = true ∧ groupOn e 31 = true ∧ within10 e (tat e.wkr.cellAt 31) = false) ∧
    (let d := withRegs (wired 95 0x021);
      let r := slotEdge d 95 0x021 (snapBusy d)
      r.2 = true ∧ snapBusy (elapse r.1 m b (d.cycle + 2)) = false) ∧
    (let d := withRegs [(srcA 191, 0x40000000), (intcA (0x300 + 4 * 191), 0x14000000)];
      srcClaimed d 191 = true ∧ claimant d 191 = 4) ∧
    snapBusy fresh = false ∧
    (let d := withRegs [(ra pgSnap 0x104, 0x80000000)];
      snapBusy d = true ∧ d.health.snapWaits = false ∧
        (evt (pokeBit d (ra pgSnap 0x104) 31 false) pgSnap 0).health.snapWaits = false) := by decide +kernel

theorem test_meets_HealthCommandsComplete :
    fresh.iso.contains 3 = false ∧ (throttleAt { fresh with therm := { evalAt := some 0 } }).isSome = true ∧
    shuttingDown fresh = false ∧ shuttingDown (withRegs [(ra pgTherm 0x108, 0x08000000)]) = true ∧
    ({ State.reset.boot with extended := true } : Boot).extended = true ∧
    (State.reset.boot.extended = false ∧ (newest State.reset.mem .ageing).isSome = false) ∧
    rb (withRegs [(ra pgCal 0x100, 0x80000000)]) (ra pgCal 0x100) 31 = true ∧
    (let d := { fresh with health := { calRun := [(0, some 95), (1, some 19), (2, some 15), (3, some 3), (4, some 15)] } };
      [CalTarget.cameraLane 15 5, .fabricLane 4 3, .lpxChannel 15, .qdrChannel 3, .delayLine 15].all
        (fun z => tat d.health.calRun (calKey z).1 == some (calKey z).2) = true) ∧
    rf (withRegs [(ra pgFlt (0x180 + 4 * 4), 1)]) (ra pgFlt (0x180 + 4 * 4)) 15 0 ≠ 0 ∧
    (let d := withRegs [(errcA 0x108, 0x80000000), (errcA (slotCur + 4), 0xFFFF)];
      curValid d = true ∧ rf d (errcA (slotCur + 4)) 15 0 = 0xFFFF ∧ preValid d = false) := by decide +kernel

theorem test_meets_PowerAndBootCommandsComplete :
    let b := State.reset.boot
    (let d := { withRegs ((pwrA 0x110, 1) :: (pwrA 0x114, 0x10000) :: wired 95 0x022) with life := .asleep };
      d.life = .asleep ∧ (slotEdge d 95 0x022 (targetBusy d 0x022)).2 = true ∧ reg d (pwrA 0x110) ≠ 0 ∧
        rf d (pwrA 0x114) 19 16 ≠ 0) ∧
    b.railsLost.contains 11 = false ∧
    (let d := { fresh with life := .held 2 }; d.life = .held 2 ∧ slathCool d = true) ∧
    (fresh.life = .up ∧ fresh.restart = false ∧ b.dogAt = none) ∧
    (let d := { fresh with upd := { settledAt := some 0 } };
      d.upd.settledAt = some 0 ∧ ({ b with confirmed := true } : Boot).confirmed = true ∧ b.fails = 0) ∧
    ({ fresh with restart := true } : Dev).restart = true ∧
    (let d := { withRegs [(ra pgBoot 0x100, 0x10000)] with upd := { mcGo := 1 } };
      mcDue d = true ∧ d.paused.contains (d.pos.sysLine / 256) = false) := by decide +kernel

theorem test_meets_UpdateCommandsComplete :
    let r : UpdRequest := { source := 2, token := 9, offset := 16777200, crc := 1114675946, payload := List.replicate 16 0 }
    let d := withRegs [(ra pgUpd 0x100, 0xC0000000)]
    let own := fun (k : Nat) => ({ d with upd := { sess := some { owner := k, token := 9 } } } : Dev)
    let w : Mem := { State.reset.mem with win := [(0, BitVec.ofNat 8 Store.settings.magic), (1, BitVec.ofNat 8 (Store.settings.magic / 256))] }
    (d.life = .up ∧ d.restart = false ∧ pairEn d = false ∧ flashRefusal d = none ∧ d.upd.sess = none) ∧
    (served d 2 = true ∧ served d 3 = true ∧ owns (own 2) r = true) ∧
    (r.payload.length ≤ 1024 ∧ r.payload.length % 16 = 0 ∧ crc32c r.payload = r.crc.toNat ∧
      r.offset + r.payload.length ≤ slotSize) ∧
    owns (own 1) pcieReq = true ∧
    (let e := { withRegs [(ra pgBoot 0x100, 0x10000)] with upd := { mcGo := 0 } }; mcPending e = true ∧ e.upd.mcGo ≠ 2) ∧
    windowCopy w = some { schema := 0, body := [] } ∧ d.img.schemaMin ≤ 0 ∧ 0 ≤ d.img.schema := by decide +kernel

theorem test_meets_HostWriteCommandsComplete :
    let m := State.reset.mem
    let b := State.reset.boot
    let armed := fun (a : Arming) => { fresh with arming := [(pgGeom 15, a)] }
    (pairEn fresh = false ∧ (pageInfo (pgGeom 15)).isSome = true ∧ isShadowPage (pgGeom 15) = true ∧
      (armOf fresh (pgGeom 15)).armed = false ∧ (armOf (armed { armed := true }) (pgGeom 15)).armed = true) ∧
    (let d := armed { armed := true, mode := 1 };
      (armOf d (pgGeom 15)).armed = true ∧ (armOf d (pgGeom 15)).mode = 1 ∧ (armOf d (pgGeom 15)).pos ≤ d.pos.sysLine) ∧
    (let pg := pgBorder;
      let v := (reg fresh (ra pg 0x008) &&& 0x80000001) ||| 0x40000000
      let e := randPower (storeReg fresh (ra pg 0x008) v) pg (bitOf v 0)
      (pageInfo pg).isSome = true ∧ ownEnables pg ≠ [] ∧ (ownEnables pg).any (fun x => rb e (ra pg x.1) x.2 ||
        (decide (shadowMask (ra pg x.1) ≠ 0) && bitOf (inForce e (ra pg x.1)) x.2)) = false) ∧
    (isRandPage (pgSeg 15) = true ∧ (pageInfo (pgSeg 15)).isSome = true) ∧
    waitsLpx fresh (.bar2Read 0x10000000 4) = false ∧
    ((1 + 2 ^ 32 - ringCons fresh 3) % 2 ^ 32 ≤ ringLen fresh 3 ∧
      (ringProd (withRegs [(ringA 4 12, 1)]) 4 + 2 ^ 32 - 1) % 2 ^ 32 ≤ ringLen (withRegs [(ringA 4 12, 1)]) 4) ∧
    [true, false].map (fun (enter : Bool) =>
      let d := withRegs [(ra pgLpx 0x158, if enter then 0 else 0x100)]
      (rb d (ra pgLpx 0x158) 8 == !enter) && !srRefused (poke d (ra pgLpx 0x158) 7 0 0)) = [true, true] ∧
    rb (withRegs [(ra pgFab 0x100, 0x10000000)]) (ra pgFab 0x100) 28 = true ∧
    (let d := withRegs [(ra pgFab 0x100, 0xA0000000), (ra pgFab 0x104, 0x80000000), (ra pgFab 0x130, 1), (ra pgFab 0x134, 0xFFFF)];
      let e := storeReg d (ra pgFab 0x13C) 0x80000000
      rb e epochStatA 31 = false ∧ e.pos.sysLine + rf e (ra pgFab 0x12C) 15 0 ≤ reg64 e (ra pgFab 0x134) ∧
        (reg e (ra pgFab 0x130)).toNat ≠ 0 ∧ isMaster e = true ∧ remoteRef e = false) ∧
    (pwrState (withRegs [(pwrA 0x104, 0x40000000)]) = 1 ∧ pwrState fresh = 0 ∧ idleHeld fresh = false) ∧
    (let d := withRegs [(pwrA 0x104, 0x40000000), (pwrA 0x108, 8)];
      sleepRefused d = none ∧ wakeWanted (elapse d m b (d.cycle + 1)) = 0) := by decide +kernel

/-! ### The block and its queue -/

theorem test_meets_queue_and_invariant_statements :
    let s : State := { State.reset with pending := [.gpioMessage 0 5] }
    State.reset.pending = [] ∧ s.Inv ∧ (∃ t, exec (.gpioMessage 0 5) s = .next t) ∧ (∃ t, step s = .next t) :=
  ⟨rfl, ⟨by decide, by unfold slotsDistinct; decide⟩, ⟨_, rfl⟩, ⟨_, rfl⟩⟩

theorem test_meets_HeldPartStaysHeld :
    ∃ s : State, s.dev.life = .held 5 ∧ (∀ v w x y z, Instr.warmReset ≠ .powerOnReset v w x y z) ∧
      (∀ r, Instr.warmReset ≠ .supplyRailLoss r) ∧ ∃ t, exec .warmReset s = .next t :=
  ⟨{ dev := { life := .held 5 } }, rfl, (fun _ _ _ _ _ => nofun), (fun _ => nofun), _, rfl⟩

/-! ### Errors, interrupts and events -/

theorem test_meets_ErrorDoneEndsCurrent :
    let d := withRegs [(errcA 0x108, 0xC0000000), (errcA (slotCur + 4), 0xFFFF)]
    curValid d = true ∧ rf d (errcA (slotCur + 4)) 15 0 = (0xFFFF : BitVec 16).toNat ∧ preValid d = true ∧
    preValid (withRegs [(errcA 0x108, 0x80000000)]) = false ∧ ¬ (curValid fresh = true) := by decide +kernel

theorem test_meets_StrayCompletionIgnored :
    ¬ (srcClaimed fresh 511 = true ∧ claimant fresh 511 = 4) ∧
    (let d := withRegs [(srcA 0, 0x40000000), (intcA 0x300, 0x14000000)];
      srcClaimed d 0 = true ∧ ¬ (srcClaimed d 0 = true ∧ claimant d 0 = 3)) := by decide +kernel

theorem test_meets_BusyConsumerIgnoresEdge :
    let busy := fun (k : Nat) (t : Word) => ({ withRegs (wired 95 t) with wkr := { busy := [(k, 10)] } } : Dev)
    (let d := busy 16 16;
      groupOn d 95 = true ∧ tat d.wkr.rose 95 ≠ some d.cycle ∧ slotFeeds d 95 16 = true ∧ targetBusy d 16 = true) ∧
    (let d := busy 0x020 0x020; slotFeeds d 95 0x020 = true ∧ targetBusy d 0x020 = true) ∧
    (let d := withRegs ((ra pgSnap 0x104, 0x80000000) :: wired 95 0x021);
      slotFeeds d 95 0x021 = true ∧ snapBusy d = true) := by decide +kernel

theorem test_meets_GroupLatchRefire :
    let d := { withRegs [(wkrA (0xA80 + 8 * 15), 0x80000000)] with wkr := { groupAt := [(15, some 0)] } }
    rb d (wkrA (0xA80 + 8 * 15)) 31 = true ∧ within10 d (tat d.wkr.groupAt 15) = true ∧
    within10 { d with cycle := 4 } (tat d.wkr.groupAt 15) = false := by decide +kernel

theorem test_meets_routing_statements :
    wkrLoops fresh = false ∧ codeKnown 0xFFFF = true ∧ codeKnown 0xFFFE = false ∧ codeKnown 0x104A = false := by decide +kernel

/-! ### Time, the fabric and the Pairing -/

theorem test_meets_time_statements :
    (let d := { fresh with time := { valid := true } };
      d.time.valid = true ∧ rf d (ra pgPwr 0x104) 31 30 = 0 ∧ stepAllowed d true = true) ∧
    stepAllowed fresh false = true ∧ pairEn fresh = false ∧ fresh.pwr.held = [] ∧
    (let d := { withRegs [(ptpA 0x100, 0x08000000)] with ethUp := [0, 1] };
      rb d (ptpA 0x100) 27 = true ∧ fresh.ethUp.contains 0 = false ∧
        10000 * 65536 < 655360001 + latIngress d 1 + latEgress d 0) := by decide +kernel

theorem test_meets_DamagedFrameIsDiscarded :
    let d := { withRegs [(fabStatA 4, 0x80000000)] with fab := [(4, { rxSeq := 2048 })] }
    let late := { control [0] with cls := 1, lseq := 0 }
    let whole : Wire := { crcOk := true, blockError := false }
    fabUp d 4 = true ∧ malformed d 4 { late with rsv := 1 } whole = true ∧
    (fbp d 4).nakFor ≠ some (fbp d 4).rxSeq ∧
    (fbp { d with fab := [(4, { rxSeq := 2048, nakFor := some 2048 })] } 4).nakFor = some 2048 ∧
    malformed d 4 late whole = false ∧ late.cls ≠ 0 ∧ late.lseq.toNat ≠ (fbp (takeTrailer d 4 late) 4).rxSeq ∧
    ((fbp (takeTrailer d 4 late) 4).rxSeq + 4096 - late.lseq.toNat) % 4096 ≤ 2048 := by decide +kernel

theorem test_meets_refused_starts :
    (reg (withRegs [(ra pgFab 0x130, 0)]) (ra pgFab 0x130) = 0 ∧ isMaster fresh = false) ∧ rb (withRegs [(epochStatA, 0x80000000)]) epochStatA 31 = true ∧
    (let d := withRegs [(ra pgFab 0x12C, 16), (ra pgFab 0x134, 15)];
      reg64 d (ra pgFab 0x134) < d.pos.sysLine + rf d (ra pgFab 0x12C) 15 0) ∧
    (pairEn fresh = false ∧ pairState (paired 3 {}) ≠ 4) ∧
    (let d := { paired 4 {} with pos := { sysLine := 1 } }; reg64 d (pairA 0x10C) < d.pos.sysLine + 64) := by decide +kernel

/-! ### The host's accesses -/

theorem test_meets_access_statements :
    let armed := { fresh with arming := [(pgGeom 15, { armed := true })] }
    (mapped 0x3FFFFFFF = false ∧ 0x3FFFFFFF < 2 ^ 30 ∧ mapped (timeA 0x11D) = true ∧ timeA 0x11D % 4 ≠ 0 ∧
      mapped (timeA 0x11C) = true ∧ (7 : BitVec 4) ≠ 0xF) ∧
    (timeA 0x11C / 4096 ≠ pgBoot ∧ timeA 0x11C / 4096 ≠ pgUpd ∧ ({ fresh with life := .recovery } : Dev).life = .recovery) ∧
    (0x30000000 ≤ 0x3000FFFF ∧ 0x3000FFFF + [(0 : Byte)].length ≤ 0x30010000) ∧
    ((pageInfo (pgGeom 15)).isSome = true ∧ isShadowPage (pgGeom 15) = true ∧ (armOf armed (pgGeom 15)).armed = true ∧
      bitOf (0x5FFFFFFF : Word) 29 = false) ∧
    (ringLen fresh 3 < (0xFFFFFFFF + 2 ^ 32 - ringCons fresh 3) % 2 ^ 32 ∧
      ringLen fresh 4 < (ringProd fresh 4 + 2 ^ 32 - 1) % 2 ^ 32) := by decide +kernel

theorem test_meets_VerdictChangesClassAndConfidence :
    let r : StoreRec := { seq := 65537, due := some 0 }
    let d := withRegs [(ra pgBorder 0x114, 0x10000)]
    r.relayed = false ∧ r.seq = rf d (ra pgBorder 0x114) 31 16 + 65536 * (1 : Word).toNat ∧ r.due ≠ none ∧
    ¬ (r.seq = rf d (ra pgBorder 0x114) 31 16 + 65536 * (0 : Word).toNat) := by decide +kernel

/-! ### Memory controllers, power and update -/

theorem test_meets_power_statements :
    (rb (withRegs [(ra pgLpx 0x104, 0x80000000)]) (ra pgLpx 0x104) 31 = true ∧ 3 ≠ lpxPoint fresh ∧ 2 ≠ lpxPoint fresh ∧
      rb (withRegs [(ra pgLpx 0x108, 3)]) (ra pgLpx 0x108) 2 = false) ∧
    (idleHeld (withForce [(ra (pgSkein 15) 0x100, 0x80000000)]) = true ∧ idleHeld fresh = false ∧ pwrState fresh = 0 ∧
      pwrState (withRegs [(pwrA 0x104, 0x40000000)]) = 1) ∧
    (let s : State := { dev := { withRegs [(sensorA 407, 760)] with life := .held 2 } };
      slathCool s.dev = false ∧ s.boot.testEn = false ∧ s.boot.railsLost = [] ∧ s.boot.refOk = true) := by decide +kernel

theorem test_meets_session_statements :
    let r : UpdRequest := { source := 3, token := 9, offset := 0, crc := 0, payload := [] }
    let d := { withRegs [(ra pgUpd 0x100, 0x40000000)] with upd := { sess := some { owner := 3, token := 9 } } }
    served d r.source.val = true ∧ d.upd.sess.isSome = true ∧ owns d r = true ∧ owns d { r with token := 8 } = false := by
  decide +kernel

end Sys2Proof.Tests
end

/-! # The two-port bridge (R508 to R510) -/

section
namespace Sys2Proof.Machine

/-! ### What an event and a counter show outside -/

/-- What an event adds to the log: its Wicker pulse (R545), and for an enabled event of Border or the host interface a
message behind it (R362). -/
theorem out_evt (d : Dev) (pg b : Nat) :
    (evt d pg b).out = .pulse (32 * pageSource pg + b) :: d.out ∨
      ∃ v, (evt d pg b).out = .msix v :: .pulse (32 * pageSource pg + b) :: d.out := by
  unfold evt
  dsimp only
  split
  · split
    · exact .inr ⟨_, rfl⟩
    · exact .inl rfl
  · exact .inl rfl

/-- No event sends a frame over the bridge. -/
theorem bridge_mem_out_evt {d : Dev} {pg b p : Nat} {c : Int} :
    Out.bridge p c ∈ (evt d pg b).out ↔ Out.bridge p c ∈ d.out := by
  rcases out_evt d pg b with h | ⟨v, h⟩ <;> simp [h]

/-- An event leaves every field outside its page's EVT_PEND as it was. -/
theorem rf_evt_apart (d : Dev) (pg b a hi lo : Nat) (h : a ≠ ra pg 0x010) : rf (evt d pg b) a hi lo = rf d a hi lo := by
  unfold rf
  rw [reg_evt, if_neg h]

/-- No register of page PTP is EVT_PEND of page TIME. -/
theorem ptpA_ne_timeEvtPend (o : Nat) : ptpA o ≠ ra pgTime 0x010 := by
  unfold ptpA ra pgPtp pgTime
  omega

/-! ### TC_FORWARD -/

theorem exec_tcForward (f : BridgeFrame) (s : State) (h : s.dev.life = .up) :
    exec (.tcForward f) s = .next (s.withDev (tcBridge s.dev f)) := by
  show runDev s (fun d => tcBridge d f) = _
  exact runDev_up s _ h

/-- What a frame that cannot be forwarded leaves: the counter at `a` rises and TC_DROP is raised (R510). -/
def tcDropped (d : Dev) (a : Nat) : Dev := evt (count d a) pgTime 5

theorem tcBridge_eq_tcDropped (d : Dev) (f : BridgeFrame) (hen : rb d (ptpA 0x100) 27 = true) (hp : f.toPartAlone = false)
    (hno : d.ethUp.contains (1 - f.port.val) = false ∨
      10000 * 65536 < f.residence + latIngress d f.port + latEgress d (1 - f.port.val)) :
    tcBridge d f = tcDropped d (ptpA (0x128 + 0x10 * (1 - f.port.val))) := by
  have hbridged : ¬ ((!rb d (ptpA 0x100) 27 || f.toPartAlone) = true) := by simp [hen, hp]
  have hdrop : (!d.ethUp.contains (1 - f.port.val) ||
      decide (f.residence + latIngress d f.port + latEgress d (1 - f.port.val) > 10000 * 65536)) = true := by
    rw [Bool.or_eq_true, Bool.not_eq_true', decide_eq_true_eq]
    exact hno
  unfold tcBridge
  rw [if_neg hbridged]
  exact if_pos hdrop

theorem rb_tcDropped_event (d : Dev) (a : Nat) : rb (tcDropped d a) (ra pgTime 0x010) 5 = true :=
  rb_evt_self (count d a) pgTime 5 (by decide)

theorem rf_tcDropped_count (d : Dev) (o : Nat) : rf (tcDropped d (ptpA o)) (ptpA o) 31 0 = satInc 32 (rf d (ptpA o) 31 0) 1 :=
  calc rf (tcDropped d (ptpA o)) (ptpA o) 31 0
      = rf (count d (ptpA o)) (ptpA o) 31 0 := rf_evt_apart _ _ _ _ _ _ (ptpA_ne_timeEvtPend o)
    _ = satInc 32 (rf d (ptpA o) 31 0) 1 := rf_countBy_self d (ptpA o) 31 0 1 (by decide)

theorem only_tcDropped (d : Dev) (a : Nat) : OnlyRegs d (tcDropped d a) [a, ra pgTime 0x010] :=
  only_trans (only_count d a) (only_evt (count d a) pgTime 5)

/-- Settles O39: a frame that cannot be forwarded counts and raises its event, and neither of the two sends a frame. -/
theorem bridgeDropsFrame : Obligations.BridgeDropsFrame := by
  intro s f hup hen hp d q hno
  refine ⟨tcDropped d (ptpA (0x128 + 0x10 * q)), ?_, rb_tcDropped_event d _, rf_tcDropped_count d _,
    fun _ _ => bridge_mem_out_evt.mp, only_tcDropped d _⟩
  rw [exec_tcForward f s hup, tcBridge_eq_tcDropped s.dev f hen hp hno]

end Sys2Proof.Machine
end

/-! # Edges that reach Wicker's consumers and groups, and completions (R549, R553, R565) -/

section
namespace Sys2Proof.Machine

/-! ### Reads outside a frame -/

theorem rf_of_same {d e : Dev} {as : List Nat} (h : SameRegs d e as) {a : Nat} (ha : a ∉ as) (hi lo : Nat) :
    rf e a hi lo = rf d a hi lo := by
  unfold rf
  rw [h a ha]

theorem rb_of_same {d e : Dev} {as : List Nat} (h : SameRegs d e as) {a : Nat} (ha : a ∉ as) (i : Nat) :
    rb e a i = rb d a i := by
  unfold rb
  rw [h a ha]

theorem ra_inj {pg o o' : Nat} : ra pg o = ra pg o' ↔ o = o' := by
  unfold ra
  omega

@[simp] theorem intcA_inj {o o' : Nat} : intcA o = intcA o' ↔ o = o' := ra_inj

@[simp] theorem wkrA_inj {o o' : Nat} : wkrA o = wkrA o' ↔ o = o' := ra_inj

@[simp] theorem intcA_eq_evtPend {o : Nat} : intcA o = ra pgIntc 0x010 ↔ o = 0x010 := ra_inj

@[simp] theorem wkrA_eq_evtPend {o : Nat} : wkrA o = ra pgWkr 0x010 ↔ o = 0x010 := ra_inj

/-! ### COMPLETE of a source that the target has not claimed -/

theorem exec_complete (tt : Fin 5) (src : Fin 512) (s : State) (h : s.dev.life = .up) :
    exec (.complete tt src) s = .next (s.withDev (completeSrc s.dev tt src)) := by
  show runDev s (fun d => completeSrc d tt src) = _
  exact runDev_up s _ h

/-- What a stray completion of `src` by target `tt` leaves: STRAY_CNT has risen and STRAY_LAST names the source (R565). -/
def strayComplete (d : Dev) (tt src : Nat) : Dev :=
  evt (setReg (count d (intcA (0x110 + 0x20 * tt))) (intcA (0x114 + 0x20 * tt)) (BitVec.ofNat 32 src)) pgIntc 0

theorem completeSrc_of_unclaimed (d : Dev) (tt src : Nat) (h : ¬ (srcClaimed d src = true ∧ claimant d src = tt)) :
    completeSrc d tt src = strayComplete d tt src := by
  unfold completeSrc
  exact if_neg (by simpa using h)

theorem only_strayComplete (d : Dev) (tt src : Nat) : OnlyRegs d (strayComplete d tt src)
    [intcA (0x110 + 0x20 * tt), intcA (0x114 + 0x20 * tt), ra pgIntc 0x010] :=
  only_trans (only_trans (only_count d _) (only_setReg _ _ _)) (only_evt _ pgIntc 0)

theorem reg_strayComplete_last (d : Dev) (tt src : Nat) :
    reg (strayComplete d tt src) (intcA (0x114 + 0x20 * tt)) = BitVec.ofNat 32 src := by
  unfold strayComplete
  rw [same_evt _ pgIntc 0 _ (by simp; omega), reg_setReg_self]

theorem rf_strayComplete_count (d : Dev) (tt src : Nat) :
    rf (strayComplete d tt src) (intcA (0x110 + 0x20 * tt)) 31 0 =
      satInc 32 (rf d (intcA (0x110 + 0x20 * tt)) 31 0) 1 := by
  unfold strayComplete
  rw [rf_of_same (same_evt _ pgIntc 0) (by simp; omega), rf_of_same (same_setReg _ _ _) (by simp)]
  exact rf_countBy_self d _ 31 0 1 (by decide)

/-- Settles O29: a completion that meets no claim of its target takes the counting branch alone. -/
theorem strayCompletionIgnored : Obligations.StrayCompletionIgnored := by
  intro s tt src hup hstray
  refine ⟨strayComplete s.dev tt src, ?_, rf_strayComplete_count s.dev tt src, reg_strayComplete_last s.dev tt src,
    only_strayComplete s.dev tt src⟩
  rw [exec_complete tt src s hup, completeSrc_of_unclaimed s.dev tt src hstray]

/-! ### Edges at a slot whose consumer is busy -/

/-- `d` with the table of the edges at which slots last rose replaced (R550). -/
def withRose (d : Dev) (r : Tbl (Option Nat)) : Dev := { d with wkr := { d.wkr with rose := r } }

/-- Slot `c` rises on the present edge (R550). -/
def slotRises (d : Dev) (c : Nat) : Dev := withRose d (tset d.wkr.rose c (some d.cycle))

/-- A change of `rose` that is taken back leaves a frame as it was. -/
theorem shown_withRose {d e : Dev} {r : Tbl (Option Nat)} (h : OnlyShown (withRose d r) e) :
    OnlyShown d (withRose e d.wkr.rose) :=
  congrArg (fun x => withRose x d.wkr.rose) h

theorem slotEdge_busy (d : Dev) (c target : Nat) (hfeeds : slotFeeds d c target = true) (hgroup : groupOn d c = true)
    (hfirst : tat d.wkr.rose c ≠ some d.cycle) : slotEdge d c target true = (ignoreEdge (slotRises d c) c, false) := by
  unfold slotEdge
  rw [if_neg (by simp [hfeeds]), if_neg (by simp [hgroup]), if_neg hfirst]
  rfl

theorem only_ignoreEdge (d : Dev) (c : Nat) : OnlyRegs d (ignoreEdge d c) [wkrA (0xD00 + 4 * c), ra pgWkr 0x010] :=
  only_trans (only_countBy d _ 31 16 1) (only_evt _ pgWkr 3)

theorem rf_ignoreEdge_count (d : Dev) (c : Nat) :
    rf (ignoreEdge d c) (wkrA (0xD00 + 4 * c)) 31 16 = satInc 16 (rf d (wkrA (0xD00 + 4 * c)) 31 16) 1 := by
  unfold ignoreEdge
  rw [rf_of_same (same_evt _ pgWkr 3) (by simp; omega)]
  exact rf_countBy_self d _ 31 16 1 (by decide)

/-! The commands of the three consumers that can be busy, where the slot passes no edge on. -/

theorem exec_trigNn_of_stopped (nn : Fin 16) (slot : Fin 96) (s : State) (e : Dev) (h : s.dev.life = .up)
    (he : slotEdge s.dev slot (1 + nn) (targetBusy s.dev (1 + nn)) = (e, false)) :
    exec (.trigNn nn slot) s = .next (s.withDev e) := by
  show execTrigNn nn slot s = _
  simp [execTrigNn, runDev_up s _ h, he]

theorem exec_encAlign_of_stopped (slot : Fin 96) (s : State) (e : Dev) (h : s.dev.life = .up)
    (he : slotEdge s.dev slot 0x020 (targetBusy s.dev 0x020) = (e, false)) :
    exec (.encAlign slot) s = .next (s.withDev e) := by
  show execEncAlign slot s = _
  simp [execEncAlign, runDev_up s _ h, he]

theorem exec_snapshot_of_stopped (slot : Fin 96) (s : State) (e : Dev) (h : s.dev.life = .up)
    (he : slotEdge s.dev slot 0x021 (snapBusy s.dev) = (e, false)) :
    exec (.snapshot slot) s = .next (s.withDev e) := by
  show execSnapshot slot s = _
  simp [execSnapshot, snapshotEdge, runDev_up s _ h, he]

/-- Settles O30: each of the three commands ends in `ignoreEdge`, whose frame then covers all three. -/
theorem busyConsumerIgnoresEdge : Obligations.BusyConsumerIgnoresEdge := by
  intro s slot hup d ignored hgroup hfirst
  have hignored : ∀ t, t = .next (s.withDev (ignoreEdge (slotRises d slot) slot)) → ignored t := fun t ht =>
    have hframe := only_ignoreEdge (slotRises d slot) slot
    ⟨_, ht, rf_ignoreEdge_count (slotRises d slot) slot, hframe.1, shown_withRose hframe.2⟩
  refine ⟨fun nn hfeeds hbusy => hignored _ ?_, fun hfeeds hbusy => hignored _ ?_, fun hfeeds hbusy => hignored _ ?_⟩
  · exact exec_trigNn_of_stopped nn slot s _ hup (hbusy ▸ slotEdge_busy d slot _ hfeeds hgroup hfirst)
  · exact exec_encAlign_of_stopped slot s _ hup (hbusy ▸ slotEdge_busy d slot _ hfeeds hgroup hfirst)
  · exact exec_snapshot_of_stopped slot s _ hup (hbusy ▸ slotEdge_busy d slot _ hfeeds hgroup hfirst)

/-! ### ON and OFF edges of a group -/

theorem exec_groupEdge (g : Fin 16) (on off : Bool) (s : State) (h : s.dev.life = .up) :
    exec (.groupEdge g on off) s = .next (s.withDev (groupEdge s.dev g on off)) := by
  show execGroupEdge g on off s = _
  simp [execGroupEdge, anyDev, h]

/-- What an edge of group `g` that comes too soon leaves: REFIRE is set and REFIRE_CNT has risen (R553). -/
def groupRefired (d : Dev) (g : Nat) : Dev := countBy (refire d) (wkrA (0xA84 + 8 * g)) 31 16 1

/-- Group `g` takes a state, and the present edge as that of its last change (R553). -/
def groupSet (d : Dev) (g : Nat) (now : Bool) : Dev :=
  pokeBit { d with wkr := { d.wkr with groupAt := tset d.wkr.groupAt g (some d.cycle) } } (wkrA 0x104) g now

/-- What an edge of a group can do: nothing, be dropped within 10 ns of the last change, or change the group later
than that (R552, R553). -/
theorem groupEdge_cases (d : Dev) (g : Nat) (on off : Bool) :
    groupEdge d g on off = d ∨
    (within10 d (tat d.wkr.groupAt g) = true ∧ groupEdge d g on off = groupRefired d g) ∨
    (within10 d (tat d.wkr.groupAt g) = false ∧ groupEdge d g on off = groupSet d g !off) := by
  unfold groupEdge
  split
  · exact .inl rfl
  · split
    · next hsoon => exact .inr (.inl ⟨hsoon, rfl⟩)
    · next hlate =>
      dsimp only
      split
      · exact .inl rfl
      · exact .inr (.inr ⟨Bool.not_eq_true _ ▸ hlate, rfl⟩)

theorem groupEdge_of_soon (d : Dev) (g : Nat) (on off : Bool) (hon : rb d (wkrA (0xA80 + 8 * g)) 31 = true)
    (hedge : (on || off) = true) (hsoon : within10 d (tat d.wkr.groupAt g) = true) :
    groupEdge d g on off = groupRefired d g := by
  unfold groupEdge
  rw [if_neg (by simp [hon, hedge]), if_pos hsoon]
  rfl

theorem only_refire (d : Dev) : OnlyRegs d (refire d) [wkrA 0x100, ra pgWkr 0x010] :=
  only_trans (only_pokeBit d _ 29 true) (only_evt _ pgWkr 2)

theorem only_groupRefired (d : Dev) (g : Nat) :
    OnlyRegs d (groupRefired d g) [wkrA 0x100, wkrA (0xA84 + 8 * g), ra pgWkr 0x010] :=
  only_mono (only_trans (only_refire d) (only_countBy _ _ 31 16 1)) (by simp)

theorem rb_refire (d : Dev) : rb (refire d) (wkrA 0x100) 29 = true := by
  unfold refire
  rw [rb_of_same (same_evt _ pgWkr 2) (by simp)]
  exact rb_pokeBit_self d _ 29 true (by decide)

theorem rb_groupRefired_refire (d : Dev) (g : Nat) : rb (groupRefired d g) (wkrA 0x100) 29 = true := by
  unfold groupRefired
  rw [rb_of_same (only_countBy _ _ 31 16 1).1 (by simp; omega), rb_refire]

theorem rf_groupRefired_count (d : Dev) (g : Nat) :
    rf (groupRefired d g) (wkrA (0xA84 + 8 * g)) 31 16 = satInc 16 (rf d (wkrA (0xA84 + 8 * g)) 31 16) 1 := by
  unfold groupRefired
  rw [rf_countBy_self _ _ 31 16 1 (by decide), rf_of_same (only_refire d).1 (by simp; omega)]

theorem rb_groupRefired_state (d : Dev) (g i : Nat) : rb (groupRefired d g) (wkrA 0x104) i = rb d (wkrA 0x104) i :=
  rb_of_same (only_groupRefired d g).1 (by simp; omega) i

theorem groupAt_groupSet (d : Dev) (g : Nat) (now : Bool) : tat (groupSet d g now).wkr.groupAt g = some d.cycle :=
  (tget_tput _ d.wkr.groupAt g g (some d.cycle)).trans (if_pos rfl)

/-- The latch of a group changes only at an edge 10 ns or more after its last change, and keeps that edge (R553). -/
theorem groupEdge_latch_changes (d : Dev) (g : Nat) (on off : Bool)
    (h : rb (groupEdge d g on off) (wkrA 0x104) g ≠ rb d (wkrA 0x104) g) :
    within10 d (tat d.wkr.groupAt g) = false ∧ tat (groupEdge d g on off).wkr.groupAt g = some d.cycle := by
  obtain heq | ⟨-, heq⟩ | ⟨hlate, heq⟩ := groupEdge_cases d g on off <;> rw [heq] at h ⊢
  · exact absurd rfl h
  · exact absurd (rb_groupRefired_state d g g) h
  · exact ⟨hlate, groupAt_groupSet d g _⟩

/-- Settles O31, by the three things that an edge of a group can do. -/
theorem groupLatchRefire : Obligations.GroupLatchRefire := by
  intro s g on off hup d
  refine ⟨groupEdge d g on off, exec_groupEdge g on off s hup, groupEdge_latch_changes d g on off, ?_⟩
  intro hon hedge hsoon
  rw [groupEdge_of_soon d g on off hon hedge hsoon]
  exact ⟨rb_groupRefired_refire d g, rf_groupRefired_count d g, only_groupRefired d g⟩

end Sys2Proof.Machine
end

/-! # Errors at the controller, and triggers at a snapshot (R611, R612, R616) -/

section
namespace Sys2Proof.Machine

/-! ### The order in which waiting errors are taken -/

theorem isortIns_perm {α : Type} (le : α → α → Bool) (x : α) (l : List α) : (isortIns le x l).Perm (x :: l) := by
  induction l with
  | nil => exact .refl _
  | cons y r ih =>
    unfold isortIns
    split
    · exact .refl _
    · exact (ih.cons y).trans (.swap x y r)

theorem isort_perm {α : Type} (le : α → α → Bool) (l : List α) : (isort le l).Perm l := by
  induction l with
  | nil => exact .refl _
  | cons x r ih => exact (isortIns_perm le x (isort le r)).trans (ih.cons x)

section
variable {α : Type} {le : α → α → Bool} (total : ∀ x y, le x y = true ∨ le y x = true)
  (trans : ∀ x y z, le x y = true → le y z = true → le x z = true)
include total trans

/-- Under a total and transitive order an element put in its place keeps a sorted list sorted. -/
theorem isortIns_pairwise (x : α) {l : List α} (hl : l.Pairwise (fun x y => le x y = true)) :
    (isortIns le x l).Pairwise (fun x y => le x y = true) := by
  induction l with
  | nil => exact List.pairwise_singleton _ x
  | cons y r ih =>
    obtain ⟨hy, hr⟩ := List.pairwise_cons.mp hl
    unfold isortIns
    split
    · next hxy =>
      exact List.pairwise_cons.mpr ⟨List.forall_mem_cons.mpr ⟨hxy, fun z hz => trans x y z hxy (hy z hz)⟩, hl⟩
    · next hxy =>
      have hyx : le y x = true := (total x y).resolve_left hxy
      refine List.pairwise_cons.mpr ⟨fun z hz => ?_, ih hr⟩
      rcases List.mem_cons.mp ((isortIns_perm le x r).mem_iff.mp hz) with rfl | hzr
      · exact hyx
      · exact hy z hzr

/-- Under a total and transitive order the sort leaves no element before one that should come first. -/
theorem isort_pairwise (l : List α) : (isort le l).Pairwise (fun x y => le x y = true) := by
  induction l with
  | nil => exact .nil
  | cons x r ih => exact isortIns_pairwise total trans x ih

end

theorem errBefore_iff (x y : ErrEvent) : errBefore x y = true ↔ y.sev < x.sev ∨ (x.sev = y.sev ∧ x.code ≤ y.code) := by
  simp [errBefore]

theorem errBefore_total (x y : ErrEvent) : errBefore x y = true ∨ errBefore y x = true := by
  simp only [errBefore_iff]
  omega

theorem errBefore_trans (x y z : ErrEvent) (hxy : errBefore x y = true) (hyz : errBefore y z = true) :
    errBefore x z = true := by
  rw [errBefore_iff] at *
  omega

theorem exec_errorArrival_none (s : State) (h : s.dev.life = .up) :
    exec (.errorArrival none) s = .next (s.withDev (takeErrors s.dev s.boot)) := by
  show runDev s (fun d => takeErrors d s.boot) = _
  exact runDev_up s _ h

/-- Settles O27: the list taken is the sort of what waits by `errBefore`, a total and transitive order. -/
theorem errorsTakenBySeverityThenCode : Obligations.ErrorsTakenBySeverityThenCode := by
  intro s hup
  refine ⟨isort errBefore s.dev.errIn, isort_perm _ _, ?_, exec_errorArrival_none s hup⟩
  exact (isort_pairwise errBefore_total errBefore_trans _).imp (errBefore_iff _ _).mp

/-! ### Bits and words that an operation writes -/

theorem rb_pokeBit (d : Dev) (a i b j : Nat) (x : Bool) (hj : j < 32) :
    rb (pokeBit d a i x) b j = if b = a ∧ j = i then x else rb d b j := by
  unfold rb
  rw [reg_pokeBit]
  by_cases hb : b = a
  · subst hb
    simp [bitOf_putBit _ _ _ _ hj]
  · simp [hb]

/-- Writing words one after another, each at its own address, changes no other register. -/
theorem only_foldl_setReg {α : Type} (addr : α → Nat) (w : Dev → α → Word) (l : List α) (d : Dev) :
    OnlyRegs d (l.foldl (fun d i => setReg d (addr i) (w d i)) d) (l.map addr) := by
  induction l generalizing d with
  | nil => exact only_refl d []
  | cons i l ih => exact only_trans (only_setReg d (addr i) (w d i)) (ih _)

/-- Copying words one after another moves each whose source none of them is copied to. -/
theorem reg_foldl_copy {α : Type} {src dst : α → Nat} (hinj : Function.Injective dst) (l : List α) (d : Dev) {i : α}
    (hi : i ∈ l) (hapart : ∀ j ∈ l, src i ≠ dst j) :
    reg (l.foldl (fun d i => setReg d (dst i) (reg d (src i))) d) (dst i) = reg d (src i) := by
  induction l generalizing d with
  | nil => cases hi
  | cons j l ih =>
    obtain ⟨hj, hl⟩ := List.forall_mem_cons.mp hapart
    by_cases hil : i ∈ l
    · calc reg (l.foldl _ (setReg d (dst j) (reg d (src j)))) (dst i)
          = reg (setReg d (dst j) (reg d (src j))) (src i) := ih _ hil hl
        _ = reg d (src i) := by rw [reg_setReg, if_neg hj]
    · obtain rfl : i = j := (List.mem_cons.mp hi).resolve_right hil
      have hout : dst i ∉ l.map dst := fun h => by
        obtain ⟨k, hk, hki⟩ := List.mem_map.mp h
        exact hil (hinj hki ▸ hk)
      calc reg (l.foldl _ (setReg d (dst i) (reg d (src i)))) (dst i)
          = reg (setReg d (dst i) (reg d (src i))) (dst i) := (only_foldl_setReg dst _ l _).1 _ hout
        _ = reg d (src i) := reg_setReg_self d _ _

/-! ### The error controller's slots -/

@[simp] theorem errcA_inj {o o' : Nat} : errcA o = errcA o' ↔ o = o' := ra_inj

@[simp] theorem errcA_eq_evtPend {o : Nat} : errcA o = ra pgErrc 0x010 ↔ o = 0x010 := ra_inj

/-- The registers of the slot whose INFO stands at `o` (R622). -/
def slotRegs (o : Nat) : List Nat := slotWords.map (fun i => errcA (o + i))

theorem errcA_mem_slotRegs {x o : Nat} : errcA x ∈ slotRegs o ↔ ∃ i ∈ slotWords, x = o + i := by
  simp [slotRegs, eq_comm]

theorem slotWords_le {i : Nat} (h : i ∈ slotWords) : i ≤ 0x18 := by
  revert i
  decide

/-- A word outside the seven of a slot is none of its registers. -/
theorem errcA_not_mem_slotRegs {x o : Nat} (h : x < o ∨ o + 0x18 < x) : errcA x ∉ slotRegs o := by
  rw [errcA_mem_slotRegs]
  rintro ⟨i, hi, rfl⟩
  have := slotWords_le hi
  omega

theorem only_clearSlot (d : Dev) (o : Nat) : OnlyRegs d (clearSlot d o) (slotRegs o) := only_foldl_setReg _ _ _ d

theorem only_copySlot (d : Dev) (src dst : Nat) : OnlyRegs d (copySlot d src dst) (slotRegs dst) :=
  only_foldl_setReg _ _ _ d

/-- A slot takes the words of another that it does not overlap. -/
theorem reg_copySlot (d : Dev) {src dst i : Nat} (hapart : src + 0x18 < dst ∨ dst + 0x18 < src) (hi : i ∈ slotWords) :
    reg (copySlot d src dst) (errcA (dst + i)) = reg d (errcA (src + i)) := by
  refine reg_foldl_copy (src := fun i => errcA (src + i)) (dst := fun i => errcA (dst + i)) ?_ slotWords d hi ?_
  · intro i j h
    simpa using h
  · intro j hj h
    have := slotWords_le hi
    have := slotWords_le hj
    rw [errcA_inj] at h
    omega

theorem only_announceErr (d : Dev) (again : Bool) : OnlyRegs d (announceErr d again) [errcA 0x108, ra pgErrc 0x010] :=
  only_mono (only_trans (only_trans (only_trans (only_pokeBit d _ 31 true) (only_pokeBit _ _ 29 again))
    (only_evt _ pgErrc 0)) (only_emit _ _)) (by simp)

/-- A presentation leaves ERRC_STAT with CUR_VALID set and REPRESENTED as it says (R613, R622). -/
theorem rb_announceErr_stat (d : Dev) (again : Bool) (i : Nat) (hi : i < 32) :
    rb (announceErr d again) (errcA 0x108) i = if i = 29 then again else if i = 31 then true else rb d (errcA 0x108) i := by
  have hevt : rb (announceErr d again) (errcA 0x108) i =
      rb (pokeBit (pokeBit d (errcA 0x108) 31 true) (errcA 0x108) 29 again) (errcA 0x108) i :=
    rb_of_same (same_evt _ pgErrc 0) (by simp) i
  simp [hevt, rb_pokeBit _ _ _ _ _ _ hi]

theorem rb_announceErr_presented (d : Dev) (again : Bool) : rb (announceErr d again) (ra pgErrc 0x010) 0 = true :=
  rb_evt_self _ pgErrc 0 (by decide)

theorem msix_mem_out_announceErr (d : Dev) (again : Bool) : Out.msix 4 ∈ (announceErr d again).out := List.mem_cons_self

/-! ### ERRC_DONE -/

theorem exec_errcDone (seq : BitVec 16) (s : State) (h : s.dev.life = .up) :
    exec (.errcDone seq) s = .next (s.withDev (errcDone s.dev seq.toNat)) := by
  show runDev s (fun d => errcDone d seq.toNat) = _
  exact runDev_up s _ h

/-- The error in PRE moves to CUR, and PRE is empty (R611). -/
def restoreCur (d : Dev) : Dev := pokeBit (clearSlot (copySlot d slotPre slotCur) slotPre) (errcA 0x108) 30 false

/-- CUR is empty, and no error is held (R611). -/
def emptyCur (d : Dev) : Dev := setReg (clearSlot d slotCur) (errcA 0x108) 0

/-- The DONE names the current error (R611). -/
def DoneNames (d : Dev) (seq : Nat) : Prop := curValid d = true ∧ rf d (errcA (slotCur + 4)) 15 0 = seq

theorem errcDone_of_pre {d : Dev} {seq : Nat} (h : DoneNames d seq) (hpre : preValid d = true) :
    errcDone d seq = announceErr (restoreCur d) true := by
  obtain ⟨hcur, hseq⟩ := h
  simp [errcDone, restoreCur, hcur, hseq, hpre]

theorem errcDone_of_no_pre {d : Dev} {seq : Nat} (h : DoneNames d seq) (hpre : preValid d = false) :
    errcDone d seq = emptyCur d := by
  obtain ⟨hcur, hseq⟩ := h
  simp [errcDone, emptyCur, hcur, hseq, hpre]

theorem errcDone_of_stray {d : Dev} {seq : Nat} (h : ¬ DoneNames d seq) : errcDone d seq = count d (errcA 0x194) := by
  unfold errcDone
  exact if_neg (by simpa [DoneNames] using h)

theorem only_restoreCur (d : Dev) : OnlyRegs d (restoreCur d) (slotRegs slotCur ++ slotRegs slotPre ++ [errcA 0x108]) :=
  only_trans (only_trans (only_copySlot d slotPre slotCur) (only_clearSlot _ slotPre)) (only_pokeBit _ _ 30 false)

theorem only_represented (d : Dev) : OnlyRegs d (announceErr (restoreCur d) true)
    (errcA 0x108 :: ra pgErrc 0x010 :: (slotRegs slotCur ++ slotRegs slotPre)) := by
  refine only_mono (only_trans (only_restoreCur d) (only_announceErr _ true)) (fun a ha => ?_)
  simp only [List.mem_append, List.mem_cons, List.not_mem_nil, or_false] at ha ⊢
  obtain (hslot | hstat) | hstat | hpend := ha
  · exact .inr (.inr hslot)
  · exact .inl hstat
  · exact .inl hstat
  · exact .inr (.inl hpend)

theorem only_emptyCur (d : Dev) : OnlyRegs d (emptyCur d) (errcA 0x108 :: slotRegs slotCur) :=
  only_mono (only_trans (only_clearSlot d slotCur) (only_setReg _ _ 0)) (by simp [or_comm])

/-- CUR shows the words and the SEQ that PRE held (R611). -/
theorem reg_represented_cur (d : Dev) {i : Nat} (hi : i ∈ slotWords) :
    reg (announceErr (restoreCur d) true) (errcA (slotCur + i)) = reg d (errcA (slotPre + i)) := by
  have hle := slotWords_le hi
  have hcur : slotCur = 0x110 := rfl
  have hpre : slotPre = 0x130 := rfl
  calc reg (announceErr (restoreCur d) true) (errcA (slotCur + i))
      = reg (restoreCur d) (errcA (slotCur + i)) := (only_announceErr _ true).1 _ (by simp; omega)
    _ = reg (clearSlot (copySlot d slotPre slotCur) slotPre) (errcA (slotCur + i)) :=
        (only_pokeBit _ _ 30 false).1 _ (by simp; omega)
    _ = reg (copySlot d slotPre slotCur) (errcA (slotCur + i)) :=
        (only_clearSlot _ slotPre).1 _ (errcA_not_mem_slotRegs (by omega))
    _ = reg d (errcA (slotPre + i)) := reg_copySlot d (by decide) hi

theorem preValid_represented (d : Dev) : preValid (announceErr (restoreCur d) true) = false := by
  have hstat := rb_announceErr_stat (restoreCur d) true 30 (by decide)
  exact hstat.trans (rb_pokeBit_self _ _ 30 false (by decide))

theorem curValid_emptyCur (d : Dev) : curValid (emptyCur d) = false := by
  simp [curValid, emptyCur, rb, bitOf]

theorem shown_errcDone (d : Dev) (seq : Nat) : OnlyShown d (errcDone d seq) := by
  by_cases h : DoneNames d seq
  · cases hpre : preValid d
    · exact errcDone_of_no_pre h hpre ▸ (only_emptyCur d).2
    · exact errcDone_of_pre h hpre ▸ (only_represented d).2
  · exact errcDone_of_stray h ▸ (only_count d _).2

/-- Settles O28, by the three things that a DONE can do. -/
theorem errorDoneEndsCurrent : Obligations.ErrorDoneEndsCurrent := by
  intro s seq hup d named
  refine ⟨errcDone d seq.toNat, exec_errcDone seq s hup, shown_errcDone d seq.toNat, ?_, ?_, ?_⟩
  · intro hnamed hpre
    rw [errcDone_of_pre hnamed hpre]
    exact ⟨fun i hi => reg_represented_cur d hi, rb_announceErr_stat _ true 31 (by decide),
      rb_announceErr_stat _ true 29 (by decide), preValid_represented d, msix_mem_out_announceErr _ true,
      rb_announceErr_presented _ true, (only_represented d).1⟩
  · intro hnamed hpre
    rw [errcDone_of_no_pre hnamed hpre]
    exact ⟨curValid_emptyCur d, (only_emptyCur d).1⟩
  · intro hstray
    rw [errcDone_of_stray hstray]
    exact ⟨rf_countBy_self d _ 31 0 1 (by decide), (only_count d _).1⟩

/-! ### Triggers while a snapshot latches -/

theorem exec_snapGo (s : State) (h : s.dev.life = .up) : exec .snapGo s = .next (s.withDev (snapTrigger s.dev s.boot 1)) := by
  show runDev s (fun d => snapTrigger d s.boot 1) = _
  exact runDev_up s _ h

theorem exec_snapshotComplete (s : State) (h : s.dev.life = .up) :
    exec .snapshotComplete s = .next (s.withDev (snapDone s.dev s.boot)) := by
  show runDev s (fun d => snapDone d s.boot) = _
  exact runDev_up s _ h

/-- An epoch trigger waits for the snapshot in progress (R616). -/
def epochWaits (d : Dev) : Dev := { d with health := { d.health with snapWaits := true } }

section
variable {d : Dev} (b : Boot) (h : snapBusy d = true)
include h

theorem snapTrigger_register_of_busy : snapTrigger d b 1 = pokeBit d (ra pgSnap 0x104) 30 true := if_pos h

theorem snapTrigger_wicker_of_busy : snapTrigger d b 2 = d := if_pos h

theorem snapTrigger_epoch_of_busy : snapTrigger d b 3 = epochWaits d := if_pos h

theorem snapTrigger_error_of_busy : snapTrigger d b 4 = evt (count d (ra pgSnap 0x108)) pgSnap 1 := if_pos h

end

/-- What a completion leaves before a waiting epoch trigger latches: BUSY is clear, DONE is raised and no trigger waits
(R616, R623). -/
def snapEnded (d : Dev) : Dev :=
  let e := evt (pokeBit d (ra pgSnap 0x104) 31 false) pgSnap 0
  { e with health := { e.health with snapWaits := false } }

theorem snapDone_of_waiting {d : Dev} (b : Boot) (hbusy : snapBusy d = true) (hwaits : d.health.snapWaits = true) :
    snapDone d b = snapTake (snapEnded d) b 3 := by
  simp [snapDone, snapEnded, hbusy, hwaits]

theorem rb_snapEnded_busy (d : Dev) : rb (snapEnded d) (ra pgSnap 0x104) 31 = false :=
  calc rb (snapEnded d) (ra pgSnap 0x104) 31
      = rb (pokeBit d (ra pgSnap 0x104) 31 false) (ra pgSnap 0x104) 31 :=
        rb_of_same (same_evt _ pgSnap 0) (by simp [ra_inj]) 31
    _ = false := rb_pokeBit_self d _ 31 false (by decide)

/-- The snapshot in progress completes, and the epoch trigger that waits for it latches on the same edge (R616). -/
theorem exec_snapshotComplete_of_epochWaits (s : State) (hup : s.dev.life = .up) (hbusy : snapBusy s.dev = true) :
    exec .snapshotComplete (s.withDev (epochWaits s.dev)) =
      .next (s.withDev (snapTake (snapEnded (epochWaits s.dev)) s.boot 3)) :=
  calc exec .snapshotComplete (s.withDev (epochWaits s.dev))
      = .next (s.withDev (snapDone (epochWaits s.dev) s.boot)) := exec_snapshotComplete (s.withDev (epochWaits s.dev)) hup
    _ = .next (s.withDev (snapTake (snapEnded (epochWaits s.dev)) s.boot 3)) := by
        rw [snapDone_of_waiting (d := epochWaits s.dev) s.boot hbusy rfl]

/-- What a busy error trigger leaves: it counts in SNAP_LOST_CNT and raises LOST, and nothing else changes (R616). -/
theorem snapTrigger_error_lost {d : Dev} (b : Boot) (h : snapBusy d = true) :
    rf (snapTrigger d b 4) (ra pgSnap 0x108) 31 0 = satInc 32 (rf d (ra pgSnap 0x108) 31 0) 1 ∧
      rb (snapTrigger d b 4) (ra pgSnap 0x010) 1 = true ∧
      OnlyRegs d (snapTrigger d b 4) [ra pgSnap 0x108, ra pgSnap 0x010] := by
  rw [snapTrigger_error_of_busy b h]
  refine ⟨?_, rb_evt_self _ pgSnap 1 (by decide), only_trans (only_count d _) (only_evt _ pgSnap 1)⟩
  rw [rf_evt_apart _ _ _ _ _ _ (by simp [ra_inj])]
  exact rf_countBy_self d _ 31 0 1 (by decide)

/-- Settles O32, by the trigger's source. -/
theorem triggerWhileSnapshotLatches : Obligations.TriggerWhileSnapshotLatches := by
  intro s hup hbusy d
  refine ⟨⟨pokeBit d (ra pgSnap 0x104) 30 true, ?_, rb_pokeBit_self d _ 30 true (by decide), ?_, only_pokeBit d _ 30 true⟩,
    snapTrigger_error_lost s.boot hbusy, snapTrigger_wicker_of_busy s.boot hbusy, snapTrigger_epoch_of_busy s.boot hbusy,
    snapEnded (epochWaits d), ?_, rb_snapEnded_busy _, rfl⟩
  · rw [exec_snapGo s hup, snapTrigger_register_of_busy s.boot hbusy]
  · exact (rb_pokeBit d _ 30 _ 31 true (by decide)).trans hbusy
  · rw [snapTrigger_epoch_of_busy s.boot hbusy]
    exact exec_snapshotComplete_of_epochWaits s hup hbusy

end Sys2Proof.Machine
end

/-! # What every command leaves of the queue, the memories and the boot record (R631) -/

section
namespace Sys2Proof.Machine

/-! ### The frames in which commands are given -/

theorem runDev_withDev (s : State) (f : Dev → Dev) : ∃ d, runDev s f = .next (s.withDev d) := by
  by_cases h : s.dev.life = .up
  · exact ⟨_, runDev_up s f h⟩
  · exact ⟨s.dev, runDev_down s f h⟩

theorem runLines_withDev (s : State) (f : Dev → Dev) : ∃ d, runLines s f = .next (s.withDev d) := runDev_withDev s _

theorem sendDev_withDev (s : State) (f : Dev → Dev) : ∃ d, sendDev s f = .next (s.withDev d) := by
  cases h : sending s
  · exact ⟨s.dev, by simp [sendDev, h]⟩
  · exact ⟨f s.dev, by simp [sendDev, h]⟩

theorem runMem_put (s : State) (f : Dev → Mem → Dev × Mem) : ∃ r, runMem s f = .next (s.put r) := by
  by_cases h : s.dev.life = .up
  · exact ⟨((f s.dev s.mem).1, (f s.dev s.mem).2, s.boot), runMem_up s f h⟩
  · exact ⟨(s.dev, s.mem, s.boot), runMem_down s f h⟩

theorem sendMem_put (s : State) (f : Dev → Mem → Dev × Mem) : ∃ r, sendMem s f = .next (s.put r) := by
  cases h : sending s
  · exact ⟨(s.dev, s.mem, s.boot), by simp [sendMem, h]⟩
  · exact ⟨((f s.dev s.mem).1, (f s.dev s.mem).2, s.boot), by simp [sendMem, h]⟩

theorem anyMem_put (s : State) (f : Dev → Mem → Dev × Mem) : ∃ r, anyMem s f = .next (s.put r) :=
  ⟨((f s.dev s.mem).1, (f s.dev s.mem).2, s.boot), rfl⟩

theorem anyState_put (s : State) (f : Dev → Mem → Boot → Dev × Mem × Boot) : ∃ r, anyState s f = .next (s.put r) :=
  ⟨f s.dev s.mem s.boot, rfl⟩

theorem hostRow_put (s : State) (a : Nat) (v : Word) : ∃ r, hostRow s a v = .next (s.put r) := anyState_put s _

theorem upState_put (s : State) (f : Dev → Mem → Boot → Dev × Mem × Boot) : ∃ r, upState s f = .next (s.put r) :=
  anyState_put s _

theorem namedFrame_put (s : State) (p : Nat) (f : Frame) (cls kind : Nat) (w : WireTime) :
    ∃ r, namedFrame s p f cls kind w = .next (s.put r) := anyState_put s _

/-- Where the command answers a next state, that state keeps the invariant. -/
def AnswersInv (o : Host.Outcome State Fault Refusal) : Prop := ∀ t, o = .next t → t.Inv

section
variable {s : State} (h : s.Inv)
include h

theorem runMem_answersInv {f : Dev → Mem → Dev × Mem}
    (hf : Memory.wf s.mem = true → Memory.wf (f s.dev s.mem).2 = true) : AnswersInv (runMem s f) :=
  fun t ht => runMem_inv s t f hf h ht

theorem sendMem_answersInv {f : Dev → Mem → Dev × Mem}
    (hf : Memory.wf s.mem = true → Memory.wf (f s.dev s.mem).2 = true) : AnswersInv (sendMem s f) :=
  fun t ht => sendMem_inv s t f hf h ht

theorem anyMem_answersInv {f : Dev → Mem → Dev × Mem}
    (hf : Memory.wf s.mem = true → Memory.wf (f s.dev s.mem).2 = true) : AnswersInv (anyMem s f) :=
  fun t ht => anyMem_inv s t f hf h ht

theorem anyState_answersInv {f : Dev → Mem → Boot → Dev × Mem × Boot}
    (hf : Memory.wf s.mem = true → slotsDistinct s.boot → Kept (f s.dev s.mem s.boot)) : AnswersInv (anyState s f) :=
  fun t ht => anyState_inv s t f (fun hs => hf hs.1 hs.2) h ht

/-- A command that the part carries out only where it stands in some way. -/
theorem anyState_ite_answersInv {p : Dev → Prop} [DecidablePred p] {f : Dev → Mem → Boot → Dev × Mem × Boot}
    (hf : Memory.wf s.mem = true → slotsDistinct s.boot → Kept (f s.dev s.mem s.boot)) :
    AnswersInv (anyState s (fun d m b => if p d then f d m b else (d, m, b))) := by
  refine anyState_answersInv h (fun hm hb => ?_)
  exact kept_ite (hf hm hb) ⟨hm, hb⟩

theorem upState_answersInv {f : Dev → Mem → Boot → Dev × Mem × Boot}
    (hf : Memory.wf s.mem = true → slotsDistinct s.boot → Kept (f s.dev s.mem s.boot)) : AnswersInv (upState s f) :=
  anyState_ite_answersInv (p := fun d => d.life = .up) h hf

theorem hostRow_answersInv (a : Nat) (v : Word) : AnswersInv (hostRow s a v) := by
  refine anyState_answersInv h (fun hm hb => ?_)
  exact hostAccess_kept _ _ _ _ hm hb

theorem namedFrame_answersInv (p : Nat) (f : Frame) (cls kind : Nat) (w : WireTime) :
    AnswersInv (namedFrame s p f cls kind w) := by
  refine anyState_ite_answersInv (p := fun d => d.life = .up ∧ f.cls.toNat = cls ∧ kindOf f.payload = kind) h (fun hm hb => ?_)
  exact frameArrive_kept _ _ _ _ _ _ _ hm hb

/-- An operation of a session: PCIe asks for it by a write of a register, another source by a message. -/
theorem session_answersInv {c : Prop} [Decidable c] {a : Nat} {v : Word} {o : Host.Outcome State Fault Refusal}
    (ho : AnswersInv o) : AnswersInv (if c then hostRow s a v else o) := by
  split
  · exact hostRow_answersInv h a v
  · exact ho

end

/-! ### Commands of the part alone, and the others -/

/-- The commands that may write a memory or the boot record. -/
def reachesMemory : Instr → Bool
  | .statReady .. | .recordIntake | .recordDelivery _ | .patchWrite | .regBulkRead .. | .regBulkWrite .. | .patchFetch ..
  | .recordFetch .. | .completionWrite | .jobDone _ | .jobLine _ | .chunkWrite .. | .mirror _ | .mirrorApply
  | .updateFragment _ | .ageingMeasure .. | .ageingAppend => true
  | .frameReceive .. | .nak .. | .credit .. | .hello .. | .assign .. | .sync .. | .pdelayResp .. => true
  | .registerWrite _ | .commitNow | .arm .. | .disarm _ | .srst _ | .randPowerGate .. | .doorbell _ | .ringConsWrite ..
  | .alignGo | .trkFlush | .peek _ | .borderVerdict _ | .srReq _ | .fabRouteCommit | .epochGo _ | .reqRun | .reqIdle
  | .reqDeepSleep | .program | .mcGo | .freezeRecipe | .settingsWrite => true
  | .updOpen _ | .updWrite _ | .close _ | .abort _ | .activate .. => true
  | .powerOnReset .. | .supplyRailLoss _ | .warmReset | .tripReleaseCheck | .rootLockReturns | .refRootOk | .watchdogExpiry
  | .goodStart | .managementRestartDone | .wake _ | .hostWake | .timerWake | .motionWake => true
  | _ => false

/-- Every other command answers the state with the part alone replaced. -/
theorem exec_withDev {i : Instr} (s : State) (h : reachesMemory i = false) : ∃ d, exec i s = .next (s.withDev d) := by
  unfold exec
  cases i <;> cases h
  case refineTimeout | datagramSend | coalTime => exact sendDev_withDev s _
  case status | sessionTimeout | sensorRead | tripComparator | groupEdge | cellEdge | interruptArrival => exact ⟨_, rfl⟩
  case waleTakeLine | alignedLine | contribution | staggerReadback | systemLineRelease | stitchTimeout | runFormation
      | thresholdUpdate | trackerLine => exact runLines_withDev s _
  all_goals exact runDev_withDev s _

/-- Every command answers the state with at most the part, the memories and the boot record replaced. -/
theorem exec_put (i : Instr) (s : State) : ∃ r, exec i s = .next (s.put r) := by
  cases hi : reachesMemory i
  case false =>
    obtain ⟨d, hd⟩ := exec_withDev s hi
    exact ⟨(d, s.mem, s.boot), hd⟩
  case true =>
    unfold exec
    cases i <;> cases hi
    case recordIntake | recordDelivery | patchWrite => exact sendMem_put s _
    case statReady | regBulkRead | patchFetch | recordFetch | completionWrite | jobDone | jobLine | chunkWrite | mirror
        | mirrorApply | ageingMeasure => exact runMem_put s _
    case updWrite => exact anyMem_put s _
    case updOpen r | close r | abort r | activate r _ =>
      by_cases hr : r.source = 1
      · exact ⟨_, if_pos hr⟩
      · exact ⟨(_, _, _), if_neg hr⟩
    case nak | credit | hello | assign | sync | pdelayResp => exact namedFrame_put s _ _ _ _ _
    case ageingAppend | watchdogExpiry | goodStart | managementRestartDone => exact upState_put s _
    case commitNow | arm | disarm | srst | randPowerGate | doorbell | ringConsWrite | alignGo | trkFlush | peek | borderVerdict
        | srReq | fabRouteCommit | epochGo | reqRun | reqIdle | reqDeepSleep | program | mcGo | freezeRecipe | settingsWrite =>
      exact hostRow_put s _ _
    all_goals exact anyState_put s _

/-- Every command keeps the invariant. -/
theorem exec_answersInv (i : Instr) {s : State} (h : s.Inv) : AnswersInv (exec i s) := by
  cases hi : reachesMemory i
  case false =>
    obtain ⟨d, hd⟩ := exec_withDev s hi
    rintro t ht
    cases hd.symm.trans ht
    exact h
  case true =>
    unfold exec
    cases i <;> cases hi
    case statReady => exact runMem_answersInv h (statReady_wf _ _ _ _)
    case recordIntake => exact sendMem_answersInv h (intake_wf _ _)
    case recordDelivery => exact sendMem_answersInv h (deliver_wf _ _ _)
    case patchWrite => exact sendMem_answersInv h (patchWrite_wf _ _)
    case regBulkRead => exact runMem_answersInv h (bulkRead_wf _ _ _ _ _)
    case regBulkWrite => exact anyState_ite_answersInv h (fun hm hb => bulkWrite_kept _ _ _ _ _ hm hb)
    case patchFetch => exact runMem_answersInv h (patchFetch_wf _ _ _ _)
    case recordFetch => exact runMem_answersInv h (recordFetch_wf _ _ _ _)
    case completionWrite => exact runMem_answersInv h (writeCompletion_wf _ _)
    case jobDone => exact runMem_answersInv h (jobDone_wf _ _ _)
    case jobLine => exact runMem_answersInv h (jobNext_wf _ _ _)
    case chunkWrite => exact runMem_answersInv h (chunkWrite_wf _ _ _ _)
    case mirror => exact runMem_answersInv h (takeMirror_wf _ _ _ _)
    case mirrorApply => exact runMem_answersInv h (mirrorNow_wf _ _ _)
    case updateFragment => exact anyState_ite_answersInv h (fun hm hb => takeFragment_kept _ _ _ _ hm hb)
    case ageingMeasure => exact runMem_answersInv h (ageBaseline_wf _ _ _ _ _)
    case ageingAppend => exact upState_answersInv h (fun hm hb => ageTurn_kept _ _ _ hm hb)
    case frameReceive => exact anyState_ite_answersInv h (fun hm hb => frameArrive_kept _ _ _ _ _ _ _ hm hb)
    case nak | credit | hello | assign | sync | pdelayResp => exact namedFrame_answersInv h _ _ _ _ _
    case registerWrite => exact anyState_answersInv h (fun hm hb => hostAccess_kept _ _ _ _ hm hb)
    case commitNow | arm | disarm | srst | randPowerGate | doorbell | ringConsWrite | alignGo | trkFlush | peek | borderVerdict
        | srReq | fabRouteCommit | epochGo | reqRun | reqIdle | reqDeepSleep | program | mcGo | freezeRecipe | settingsWrite =>
      exact hostRow_answersInv h _ _
    case updWrite => exact anyMem_answersInv h (fun hm => wf_ite _ _ hm (writeSess_wf _ _ _ _ hm))
    case updOpen => exact session_answersInv h (anyState_answersInv h (fun hm hb => openSess_kept _ _ _ _ hm hb))
    case close => exact session_answersInv h (anyState_answersInv h (fun hm hb => closeSess_kept _ _ _ _ hm hb))
    case abort => exact session_answersInv h (fun t ht => anyDev_inv s t _ h ht)
    case activate => exact session_answersInv h (anyState_answersInv h (fun hm hb => activateImage_kept _ _ _ _ _ hm hb))
    case powerOnReset => exact anyState_answersInv h (fun hm hb => powerOn_kept _ _ _ _ _ _ _ _ hm hb)
    case supplyRailLoss => exact anyState_answersInv h (fun hm hb => railLost_kept _ _ _ _ hm hb)
    case warmReset => exact anyState_answersInv h (fun hm hb => warmReset_kept _ _ _ _ hm hb)
    case tripReleaseCheck => exact anyState_answersInv h (fun hm hb => tripRelease_kept _ _ _ hm hb)
    case rootLockReturns => exact anyState_answersInv h (fun hm hb => rootLockBack_kept _ _ _ hm hb)
    case refRootOk => exact anyState_answersInv h (fun hm hb => refRootBack_kept _ _ _ hm hb)
    case watchdogExpiry => exact upState_answersInv h (fun hm hb => watchdog_kept _ _ _ hm hb)
    case goodStart => exact upState_answersInv h (fun hm hb => goodStart_kept _ _ _ hm hb)
    case managementRestartDone => exact upState_answersInv h (fun hm hb => ⟨endRestart_wf _ _ _ hm, hb⟩)
    case wake => exact anyState_ite_answersInv h (fun hm hb => wakeWith_kept _ _ (wakeEdge_wf _ _ _ hm) hb)
    case hostWake => exact anyState_ite_answersInv h (fun hm hb => wakeWith_kept _ _ (wakeFire_wf _ _ _ hm) hb)
    case timerWake => exact anyState_ite_answersInv h (fun hm hb => wakeWith_kept _ _ (timerWake_wf _ _ hm) hb)
    case motionWake => exact anyState_ite_answersInv h (fun hm hb => wakeWith_kept _ _ (motionWake_wf _ _ hm) hb)

/-! ### Steps -/

/-- Settles O23: an edge of the clock leaves the memories and the boot record, and each command keeps the invariant. -/
theorem stepKeepsInvariant : Obligations.StepKeepsInvariant := by
  intro s t hs ht
  unfold step at ht
  split at ht
  · cases ht
    exact hs
  next i r _ =>
    have hr : State.Inv { s with pending := r } := hs
    exact exec_answersInv i hr t ht

/-- Settles O20, by the shape of what each command answers. -/
theorem everyCommandAnswers : Obligations.EveryCommandAnswers := by
  have hexec (i : Instr) (s : State) : ∃ t, exec i s = .next t := (exec_put i s).imp' _ (fun _ hr => hr)
  refine ⟨hexec, fun s => ?_⟩
  unfold Safe step
  split
  · exact ⟨_, rfl⟩
  · exact hexec _ _

/-- Settles O21, by the shape of what each command answers. -/
theorem commandsKeepQueue : Obligations.CommandsKeepQueue := by
  intro i s t ht
  obtain ⟨r, hr⟩ := exec_put i s
  cases hr.symm.trans ht
  rfl

/-- Settles O26: no listed command reaches a memory or the boot record. -/
theorem partCommandsLeaveMemories : Obligations.PartCommandsLeaveMemories := by
  intro i s t ht
  have hkept (hi : reachesMemory i = false) : t.mem = s.mem ∧ t.boot = s.boot := by
    obtain ⟨d, hd⟩ := exec_withDev s hi
    cases hd.symm.trans ht
    exact ⟨rfl, rfl⟩
  clear ht
  cases i
  all_goals first | exact hkept rfl | exact trivial

end Sys2Proof.Machine
end

/-! # Commands that one register or one list of the part answers -/

section
namespace Sys2Proof.Machine

/-- A command of the running part alone, on a part that runs. -/
theorem exec_of_runDev {i : Instr} {s : State} {e : Dev} (f : Dev → Dev) (hi : exec i s = runDev s f) (hup : s.dev.life = .up)
    (he : f s.dev = e) : exec i s = .next (s.withDev e) := by
  rw [hi, runDev_up s f hup, he]

/-! ### Fields and bits beside the one written -/

theorem rf_poke_apart (d : Dev) (a hi lo v hi' lo' : Nat) (h : hi' < 32) (hapart : hi' < lo ∨ hi < lo') :
    rf (poke d a hi lo v) a hi' lo' = rf d a hi' lo' := by
  unfold rf
  rw [reg_poke, if_pos rfl, fld_putFld_apart _ _ _ _ _ _ h hapart]

theorem rf_pokeBit_apart (d : Dev) (a i hi lo : Nat) (x : Bool) (h : hi < 32) (hapart : i < lo ∨ hi < i) :
    rf (pokeBit d a i x) a hi lo = rf d a hi lo := by
  unfold rf
  rw [reg_pokeBit, if_pos rfl, fld_putBit_apart _ _ _ _ _ h hapart]

theorem rb_poke_apart (d : Dev) (a hi lo v j : Nat) (h : j < 32) (hapart : j < lo ∨ hi < j) :
    rb (poke d a hi lo v) a j = rb d a j := by
  unfold rb
  rw [reg_poke, if_pos rfl, bitOf_putFld _ _ _ _ _ h, if_neg (by omega)]

theorem rb_setReg_self (d : Dev) (a i : Nat) (w : Word) : rb (setReg d a w) a i = bitOf w i := by
  unfold rb
  rw [reg_setReg_self]

/-- A register that no round of a loop writes keeps its word. -/
theorem reg_foldl_same {α : Type} {f : Dev → α → Dev} {a : Nat} (l : List α) (d : Dev)
    (hf : ∀ x ∈ l, ∀ d, reg (f d x) a = reg d a) : reg (l.foldl f d) a = reg d a := by
  induction l generalizing d with
  | nil => rfl
  | cons x l ih =>
    obtain ⟨hx, hl⟩ := List.forall_mem_cons.mp hf
    exact (ih _ hl).trans (hx d)

/-- Words written one after another, each at its own address and from what no such write changes, all stand at the end. -/
theorem reg_foldl_setReg {α : Type} {dst : α → Nat} (hinj : Function.Injective dst) {w : Dev → α → Word}
    (hw : ∀ d a x i, w (setReg d a x) i = w d i) (l : List α) (d : Dev) {i : α} (hi : i ∈ l) :
    reg (l.foldl (fun d i => setReg d (dst i) (w d i)) d) (dst i) = w d i := by
  induction l generalizing d with
  | nil => cases hi
  | cons j l ih =>
    by_cases hil : i ∈ l
    · exact (ih _ hil).trans (hw d _ _ i)
    · obtain rfl : i = j := (List.mem_cons.mp hi).resolve_right hil
      have hout : dst i ∉ l.map dst := fun h => by
        obtain ⟨k, hk, hki⟩ := List.mem_map.mp h
        exact hil (hinj hki ▸ hk)
      exact ((only_foldl_setReg dst w l _).1 _ hout).trans (reg_setReg_self d _ _)

/-! ### Software interrupt sources (R570) -/

theorem same_ite {d e f : Dev} {as : List Nat} {c : Prop} [Decidable c] (he : SameRegs d e as) (hf : SameRegs d f as) :
    SameRegs d (if c then e else f) as := by
  split
  · exact he
  · exact hf

theorem same_setSrc {d e : Dev} {k : Nat} (h : SameRegs d e [srcA k]) (st : Nat) : SameRegs d (setSrc e k st) [srcA k] :=
  same_trans h (same_setReg e _ _)

theorem same_claimSrc (d : Dev) (k : Nat) : SameRegs d (claimSrc d k) [srcA k] :=
  same_setSrc (same_trans (same_setReg d _ _) (same_setReg _ _ _)) 2

/-- Sensing a source changes its own status word alone. -/
theorem same_senseSrc (d : Dev) (k : Nat) (now : Bool) : SameRegs d (senseSrc d k now) [srcA k] := by
  have hpin : SameRegs d (pokeBit d (srcA k) 28 now) [srcA k] := same_setReg d _ _
  have harr : SameRegs d (arrival (pokeBit d (srcA k) 28 now) k) [srcA k] := same_trans hpin (same_setReg _ _ _)
  unfold senseSrc
  dsimp only
  split
  · have hmid := same_ite (c := (now && !rb d (srcA k) 28) = true) harr hpin
    split
    · exact same_ite (same_setSrc hmid 1) hmid
    · exact same_ite hmid (same_setSrc hmid 0)
    · exact same_ite hmid (same_setSrc hmid 4)
    · exact same_ite (same_setSrc hmid 2) hmid
    · exact hmid
  · refine same_ite ?_ hpin
    split
    · exact same_setSrc harr 1
    · exact same_setSrc harr 3
    · exact harr

/-- The levels of the software sources. -/
def swiLevels (d : Dev) : Word := reg d (intcA 0x1A8)

theorem srcA_ne_swi (k : Nat) : intcA 0x1A8 ∉ [srcA k] := by
  simp [intcA, srcA, ra, pgIntc, pgIntcSt]
  omega

theorem swiLevels_senseSrc (d : Dev) (k : Nat) (now : Bool) : swiLevels (senseSrc d k now) = swiLevels d :=
  same_senseSrc d k now _ (srcA_ne_swi k)

theorem swiLevels_claimSrc (d : Dev) (k : Nat) : swiLevels (claimSrc d k) = swiLevels d :=
  same_claimSrc d k _ (srcA_ne_swi k)

theorem swiLevels_setStack (d : Dev) {tt : Nat} (htt : tt < 4) (st : List (Nat × Nat)) :
    swiLevels (setStack d tt st) = swiLevels d := by
  have hne : intcA 0x1A8 ≠ intcA (0x108 + 0x20 * tt) := by
    simp
    omega
  unfold swiLevels setStack showCore
  rw [reg_setReg, if_neg hne]
  rfl

theorem swiLevels_emit (d : Dev) (o : Out) : swiLevels (emit d o) = swiLevels d := rfl

theorem swiLevels_enterCore (n : Nat) (d : Dev) {tt : Nat} (htt : tt < 4) : swiLevels (enterCore n d tt) = swiLevels d := by
  induction n generalizing d with
  | zero => rfl
  | succ n ih =>
    unfold enterCore
    split
    · rfl
    · dsimp only
      split
      · rfl
      · rw [ih, swiLevels_emit, swiLevels_setStack _ htt, swiLevels_claimSrc]

theorem swiLevels_tellHost (d : Dev) (k : Nat) : swiLevels (tellHost d k) = swiLevels d := by
  unfold tellHost
  split
  · refine (same_setReg (claimSrc d k) _ _ _ ?_).trans (swiLevels_claimSrc d k)
    simp [intcA, ra, pgIntc, pgIntcSt]
    omega
  · rfl

/-- Delivering sources changes no level of a software source. -/
theorem swiLevels_intcDeliver (d : Dev) : swiLevels (intcDeliver d) = swiLevels d := by
  unfold swiLevels intcDeliver
  dsimp only
  rw [reg_foldl_same _ _ (fun k _ e => swiLevels_tellHost e k)]
  exact reg_foldl_same _ _ (fun tt htt e => swiLevels_enterCore 15 e (List.mem_range.mp htt))

theorem swiLevels_swiWrite (d : Dev) (v : Word) : swiLevels (swiWrite d v) = v := by
  unfold swiWrite
  dsimp only
  rw [swiLevels_intcDeliver]
  unfold swiLevels
  rw [reg_foldl_same _ _ (fun j _ e => swiLevels_senseSrc e (160 + j) _), reg_setReg_self]

/-- Settles O33: what follows the write of the levels changes none of them. -/
theorem softwareSourceLevels : Obligations.SoftwareSourceLevels := by
  intro s bits hup
  refine ⟨⟨_, exec_of_runDev (fun d => swiSet d bits) rfl hup rfl, fun k _ => ?_⟩,
    ⟨_, exec_of_runDev (fun d => swiClear d bits) rfl hup rfl, fun k hk => ?_⟩⟩
  · calc bitOf (swiLevels (swiSet s.dev bits)) k
        = bitOf (swiLevels s.dev ||| bits) k := by rw [swiSet, swiLevels_swiWrite, swiLevels]
      _ = (bitOf (swiLevels s.dev) k || bitOf bits k) := BitVec.getLsbD_or
  · calc bitOf (swiLevels (swiClear s.dev bits)) k
        = bitOf (swiLevels s.dev &&& ~~~ bits) k := by rw [swiClear, swiLevels_swiWrite, swiLevels]
      _ = (bitOf (swiLevels s.dev) k && !bitOf bits k) := by simp [bitOf, hk]

/-! ### Wicker's producer selects (R546) -/

theorem only_selRefuse (d : Dev) (o : Nat) : OnlyRegs d (selRefuse d o) [wkrA 0x100, ra pgWkr 0x010] :=
  only_mono (only_trans (only_trans (only_pokeBit d _ 30 true) (only_poke _ _ 11 0 o)) (only_evt _ pgWkr 1)) (by simp)

theorem wkrStat_selRefuse (d : Dev) (o : Nat) :
    reg (selRefuse d o) (wkrA 0x100) = reg (poke (pokeBit d (wkrA 0x100) 30 true) (wkrA 0x100) 11 0 o) (wkrA 0x100) :=
  same_evt _ pgWkr 1 _ (by simp)

theorem rb_selRefuse (d : Dev) (o : Nat) : rb (selRefuse d o) (wkrA 0x100) 30 = true :=
  calc rb (selRefuse d o) (wkrA 0x100) 30
      = rb (poke (pokeBit d (wkrA 0x100) 30 true) (wkrA 0x100) 11 0 o) (wkrA 0x100) 30 :=
        congrArg (bitOf · 30) (wkrStat_selRefuse d o)
    _ = rb (pokeBit d (wkrA 0x100) 30 true) (wkrA 0x100) 30 := rb_poke_apart _ _ _ _ _ _ (by decide) (by decide)
    _ = true := rb_pokeBit_self d _ 30 true (by decide)

theorem rf_selRefuse (d : Dev) (o : Nat) : rf (selRefuse d o) (wkrA 0x100) 11 0 = o % 4096 :=
  calc rf (selRefuse d o) (wkrA 0x100) 11 0
      = rf (poke (pokeBit d (wkrA 0x100) 30 true) (wkrA 0x100) 11 0 o) (wkrA 0x100) 11 0 :=
        congrArg (fld · 11 0) (wkrStat_selRefuse d o)
    _ = o % 4096 := rf_poke_self _ _ 11 0 o (by decide)

/-- Settles O35, by whether the code names a producer. -/
theorem producerSelectChecked : Obligations.ProducerSelectChecked := by
  intro s pp v hup
  refine ⟨_, exec_of_runDev (fun d => pselWrite d (0x180 + 4 * pp) v.toNat) rfl hup rfl, fun hknown => ?_, fun hknown => ?_⟩
  · rw [pselWrite, if_pos hknown]
    exact ⟨rf_poke_self _ _ 15 0 _ (by decide), only_poke _ _ 15 0 _⟩
  · rw [pselWrite, if_neg (by simp [hknown])]
    refine ⟨rb_selRefuse _ _, (rf_selRefuse _ _).trans ?_, only_selRefuse _ _⟩
    omega

/-! ### Steps of the time counter (R499) -/

@[simp] theorem timeA_inj {o o' : Nat} : timeA o = timeA o' ↔ o = o' := ra_inj

@[simp] theorem timeA_eq_evtPend {o : Nat} : timeA o = ra pgTime 0x010 ↔ o = 0x010 := ra_inj

/-- A step that is refused (R499). -/
def stepRefused (d : Dev) : Dev := evt (count (pokeBit d (timeA 0x104) 27 true) (timeA 0x148)) pgTime 1

theorem timeStep_of_refused {d : Dev} (hvalid : d.time.valid = true) (hrun : rf d (ra pgPwr 0x104) 31 30 = 0) (t : Nat) (ns : Int) :
    timeStep d false t ns = stepRefused d := if_neg (by simp [stepAllowed, hvalid, hrun])

theorem only_stepRefused (d : Dev) : OnlyRegs d (stepRefused d) [timeA 0x104, timeA 0x148, ra pgTime 0x010] :=
  only_trans (only_trans (only_pokeBit d _ 27 true) (only_count _ _)) (only_evt _ pgTime 1)

theorem rb_stepRefused (d : Dev) : rb (stepRefused d) (timeA 0x104) 27 = true :=
  calc rb (stepRefused d) (timeA 0x104) 27
      = rb (count (pokeBit d (timeA 0x104) 27 true) (timeA 0x148)) (timeA 0x104) 27 := rb_of_same (same_evt _ pgTime 1) (by simp) 27
    _ = rb (pokeBit d (timeA 0x104) 27 true) (timeA 0x104) 27 := rb_of_same (same_setReg _ _ _) (by simp) 27
    _ = true := rb_pokeBit_self d _ 27 true (by decide)

theorem rf_stepRefused (d : Dev) : rf (stepRefused d) (timeA 0x148) 31 0 = satInc 32 (rf d (timeA 0x148) 31 0) 1 :=
  calc rf (stepRefused d) (timeA 0x148) 31 0
      = rf (count (pokeBit d (timeA 0x104) 27 true) (timeA 0x148)) (timeA 0x148) 31 0 := rf_of_same (same_evt _ pgTime 1) (by simp) 31 0
    _ = satInc 32 (rf (pokeBit d (timeA 0x104) 27 true) (timeA 0x148) 31 0) 1 := rf_countBy_self _ _ 31 0 1 (by decide)
    _ = satInc 32 (rf d (timeA 0x148) 31 0) 1 := by rw [rf_of_same (only_pokeBit d (timeA 0x104) 27 true).1 (by simp)]

/-- Settles O36: both steps end in the refusal. -/
theorem timeStepRefusedInRun : Obligations.TimeStepRefusedInRun := by
  intro s i hup hi d hvalid hrun
  have hexec : exec i s = .next (s.withDev (stepRefused d)) := by
    obtain rfl | rfl := hi
    · exact exec_of_runDev (fun d => timeSet d false) rfl hup (timeStep_of_refused hvalid hrun _ _)
    · exact exec_of_runDev (fun d => timeStepGo d false) rfl hup (timeStep_of_refused hvalid hrun _ _)
  exact ⟨_, hexec, evt_time _ _ _, rb_stepRefused d, rb_evt_self _ pgTime 1 (by decide), rf_stepRefused d, only_stepRefused d⟩

/-! ### Swaps (R536) -/

theorem requestSwap_refused {d : Dev} {line : Nat} (cause : Nat)
    (h : pairEn d = false ∨ pairState d ≠ 4 ∨ line < d.pos.sysLine + 64) :
    requestSwap d line cause = pokeBit d (pairA 0x104) 22 true := by
  refine if_neg ?_
  simp only [Bool.and_eq_true, decide_eq_true_eq, not_and, Nat.not_le, and_imp]
  intro hen hstate
  obtain h | h | h := h
  · simp [hen] at h
  · exact absurd hstate h
  · exact h

/-- Settles O42: the write of SWAP alone ends in the refusal. -/
theorem swapRefused : Obligations.SwapRefused := by
  intro s hup d h
  have hctrl : pairCtrl d 0x80000000 = pokeBit d (pairA 0x104) 22 true := requestSwap_refused 1 h
  exact ⟨_, exec_of_runDev (fun d => pairCtrl d 0x80000000) rfl hup hctrl, rb_pokeBit_self d _ 22 true (by decide), rfl,
    only_pokeBit d _ 22 true⟩

/-! ### Stake dies (R75) -/

theorem stopCause_of_mem {d : Dev} {w k : Nat} (hk : k ∈ d.iso) (hw : w / 4 = k) : stopCause d w = some 0x18 := by
  simp [stopCause, hw, hk]

theorem stopCause_congr {d e : Dev} {w : Nat} (h : w / 4 ∈ e.iso ↔ w / 4 ∈ d.iso) : stopCause e w = stopCause d w := by
  simp [stopCause, h]

/-- The die joins those isolated, and its rod closes (R75). -/
def closeDie (d : Dev) (k : Nat) : Dev :=
  { d with iso := d.iso ++ [k], rods := d.rods.filter (fun r => decide (r.wale / 4 ≠ k)) }

theorem isolateDie_of_new {d : Dev} {k : Nat} (detail : Nat) (h : d.iso.contains k = false) :
    isolateDie d k detail = raise (closeDie d k) pgFlt 0x10 2 4 detail := if_neg (by simpa using h)

theorem isolateDie_of_isolated {d : Dev} {k : Nat} (detail : Nat) (h : d.iso.contains k = true) : isolateDie d k detail = d :=
  if_pos h

/-- Settles O44, by whether the die is isolated already. -/
theorem stakeDieIsolated : Obligations.StakeDieIsolated := by
  intro s k detail hup d
  refine ⟨isolateDie d k detail.toNat, exec_of_runDev (fun d => isolateDie d k detail.toNat) rfl hup rfl, ?_⟩
  cases hk : d.iso.contains k.val
  case true =>
    rw [isolateDie_of_isolated _ hk]
    exact ⟨fun w hw => stopCause_of_mem (by simpa using hk) hw, fun _ _ => rfl, fun _ => rfl, nofun, rfl, rfl, rfl⟩
  case false =>
    rw [isolateDie_of_new _ hk]
    obtain ⟨x, herr, hcode, hsev, -⟩ := raise_errIn (closeDie d k) pgFlt 0x10 2 4 detail.toNat
    refine ⟨fun w hw => stopCause_of_mem (k := k) (by simp [closeDie]) hw, fun w hw => stopCause_congr (by simp [closeDie, hw]),
      nofun, fun _ => ⟨?_, ?_, x, herr, hcode, hsev⟩, by simp [closeDie], by simp [closeDie], by simp [closeDie]⟩
    · simp [closeDie]
    · intro r hr hw
      simp [closeDie, hr, hw]

/-! ### Weaver parity (R72) -/

section
variable (d : Dev) (k loc level : Nat)

/-- Tracking a corrected event leaves the waiting errors and the wales. -/
theorem fltTrack_errIn_wale : (fltTrack d k loc).1.errIn = d.errIn ∧ (fltTrack d k loc).1.wale = d.wale := by
  unfold fltTrack
  dsimp only
  split
  · exact ⟨rfl, rfl⟩
  · split
    · exact ⟨rfl, rfl⟩
    · exact ⟨rfl, rfl⟩

theorem retireSlot_errIn_wale : (retireSlot d loc).errIn = d.errIn ∧ (retireSlot d loc).wale = d.wale := by
  unfold retireSlot
  dsimp only
  split
  · simp [setTrk]
  · exact ⟨rfl, rfl⟩

/-- A corrected event leaves the wales, and any error it reports waits behind those that already do. -/
theorem faultEvent_errIn_wale :
    (∃ es, (faultEvent d k loc level).errIn = d.errIn ++ es) ∧ (faultEvent d k loc level).wale = d.wale := by
  obtain ⟨htrack, htrackWale⟩ := fltTrack_errIn_wale d k loc
  unfold faultEvent
  split
  · exact ⟨⟨[], by simp⟩, rfl⟩
  · dsimp only
    split
    · generalize hm : setReg _ (fltA k 12) _ = m
      have hmid : m.errIn = d.errIn ∧ m.wale = d.wale := by
        rw [← hm]
        exact ⟨htrack, htrackWale⟩
      obtain ⟨x, hx, -⟩ := raise_errIn (evt m pgFlt k) pgFlt 0x12 1 level loc
      have hraised : (raise (evt m pgFlt k) pgFlt 0x12 1 level loc).errIn = d.errIn ++ [x] := by rw [hx, evt_errIn, hmid.1]
      have hraisedWale : (raise (evt m pgFlt k) pgFlt 0x12 1 level loc).wale = d.wale := by rw [raise_wale, evt_wale, hmid.2]
      split
      · obtain ⟨hretire, hretireWale⟩ := retireSlot_errIn_wale (raise (evt m pgFlt k) pgFlt 0x12 1 level loc) loc
        exact ⟨⟨[x], hretire.trans hraised⟩, hretireWale.trans hraisedWale⟩
      · exact ⟨⟨[x], hraised⟩, hraisedWale⟩
    · exact ⟨⟨[], by simp [htrack]⟩, htrackWale⟩

end

theorem wst_setWst (d : Dev) (w x v y : Nat) (z : WaleSt) :
    wst (setWst d w x z) v y = if 2 * v + y = 2 * w + x then z else wst d v y :=
  tget_tput _ d.wale (2 * w + x) (2 * v + y) z

theorem boolToNat_injective : Function.Injective Bool.toNat := by
  intro x y h
  cases x
  · cases y
    · rfl
    · cases h
  · cases y
    · cases h
    · rfl

/-- The line marked for replacement in context `x` of wale `w` (R72). -/
def markFault (d : Dev) (w x stage : Nat) : Dev := setWst d w x { wst d w x with faults := (wst d w x).faults ++ [stage] }

theorem wst_markFault_self (d : Dev) (w x stage : Nat) :
    (wst (markFault d w x stage) w x).faults = (wst d w x).faults ++ [stage] := by
  rw [markFault, wst_setWst, if_pos rfl]

theorem wst_markFault_apart {d : Dev} {w x v y : Nat} (stage : Nat) (h : 2 * v + y ≠ 2 * w + x) :
    wst (markFault d w x stage) v y = wst d v y := by
  rw [markFault, wst_setWst, if_neg h]

theorem wst_congr {d e : Dev} (h : e.wale = d.wale) (w x : Nat) : wst e w x = wst d w x := by
  unfold wst
  rw [h]

/-- Settles O45: the error waits first of those that the command raises, and one context of one wale changes. -/
theorem weaverParityReported : Obligations.WeaverParityReported := by
  intro s ctx w rand k colour hup d
  let loc := 4096 * ctx.toNat + 256 * w.val + 16 * rand.val + k.val
  let marked := markFault d w ctx.toNat (parityStage rand colour)
  let raised := raise marked (randPage w rand) 0x11 2 3 loc
  obtain ⟨x, hx, hcode, hsev, -, hdetail, -⟩ := raise_errIn marked (randPage w rand) 0x11 2 3 loc
  obtain ⟨⟨es, hes⟩, hwale⟩ := faultEvent_errIn_wale raised 2 loc (faultLevel 2 true)
  have hwst (v : Fin 16) (c : Bool) : wst (weaverParity d ctx.toNat w rand k colour) v c.toNat = wst marked v c.toNat :=
    wst_congr (hwale.trans (raise_wale _ _ _ _ _ _)) _ _
  refine ⟨weaverParity d ctx.toNat w rand k colour, x, es,
    exec_of_runDev (fun d => weaverParity d ctx.toNat w rand k colour) rfl hup rfl, ?_, hcode, hsev, ?_, ?_, fun v c hvc => ?_⟩
  · calc (faultEvent raised 2 loc (faultLevel 2 true)).errIn
        = raised.errIn ++ es := hes
      _ = d.errIn ++ x :: es := by
        rw [hx, List.append_assoc]
        rfl
  · rw [hdetail]
    have := Bool.toNat_lt ctx
    omega
  · rw [hwst]
    exact wst_markFault_self d w ctx.toNat _
  · have hctx := Bool.toNat_lt ctx
    have hc := Bool.toNat_lt c
    have hne : 2 * v.val + c.toNat ≠ 2 * w.val + ctx.toNat := by
      intro h
      have hv : v = w := by omega
      have hcc : c = ctx := boolToNat_injective (by omega)
      simp [hv, hcc] at hvc
    exact (hwst v c).trans (wst_markFault_apart _ hne)

/-! ### A side of the seam (R318) -/

theorem sideOf_setSide (d : Dev) (right r : Bool) (z : SeamSide) :
    sideOf (setSide d right z) r = if r = right then z else sideOf d r := by
  cases right <;> cases r <;> rfl

/-- The BROKEN bit of a side in TRK_SEAM_STAT (R321). -/
def brokenBit (right : Bool) : Nat := if right then 30 else 31

theorem rearm_of_broken {d : Dev} {right : Bool} (h : rb d (ra pgTrk 0x164) (brokenBit right) = true) :
    rearm d right = setSide (pokeBit d (ra pgTrk 0x164) (brokenBit right) false) right
      { sideOf d right with own := [], nb := [] } := if_pos h

theorem rearm_of_intact {d : Dev} {right : Bool} (h : rb d (ra pgTrk 0x164) (brokenBit right) = false) : rearm d right = d :=
  if_neg (by rw [← brokenBit, h]; decide)

theorem seamRearm_one (d : Dev) (right : Bool) : seamRearm d (!right) right = rearm d right := by
  cases right <;> rfl

/-- Settles O46, by whether the side is broken. -/
theorem seamSideRearmed : Obligations.SeamSideRearmed := by
  intro s right hup d bit
  refine ⟨rearm d right, exec_of_runDev (fun d => seamRearm d (!right) right) rfl hup (seamRearm_one d right), ?_⟩
  have hbit : bit < 32 := by
    cases right <;> decide
  cases hbroken : rb d (ra pgTrk 0x164) bit
  case true =>
    rw [rearm_of_broken hbroken]
    refine ⟨rb_pokeBit_self d _ _ false hbit, same_setReg d _ _, ?_, fun _ => ?_, nofun⟩
    · rw [sideOf_setSide, if_neg (by simp)]
      rfl
    · rw [sideOf_setSide, if_pos rfl]
      exact ⟨rfl, rfl⟩
  case false =>
    rw [rearm_of_intact hbroken]
    exact ⟨hbroken, same_refl d _, rfl, nofun, fun _ => rfl⟩

/-! ### The LPDDR5X operating point (R412) -/

theorem pointOk_of_bad {d : Dev} {p : BitVec 2} (h : p = 3 ∨ fld (inForce d (ra pgLpx (0x204 + 0x20 * p.toNat))) 31 16 = 0 ∨
    fld (inForce d (ra pgLpx (0x204 + 0x20 * p.toNat))) 15 0 = 0 ∨ rb d (ra pgLpx 0x108) p.toNat = false) :
    pointOk d p.toNat = false := by
  obtain rfl | h | h | h := h <;> simp [pointOk, *]

theorem pointChange_of_busy {d : Dev} (p : Nat) (h : rb d (ra pgLpx 0x104) 31 = true) : pointChange d p = d := if_pos h

theorem pointChange_of_bad {d : Dev} {p : Nat} (hbusy : rb d (ra pgLpx 0x104) 31 = false) (hp : p ≠ lpxPoint d)
    (hbad : pointOk d p = false) : pointChange d p = pokeBit d (ra pgLpx 0x104) 30 true := by
  simp [pointChange, hbusy, hp, hbad]

/-- Settles O53, by the branches of a change of the point. -/
theorem operatingPointRefused : Obligations.OperatingPointRefused := by
  intro s p hup d b
  refine ⟨fun hbusy => ?_, fun hbusy hp hbad => ?_⟩
  · exact exec_of_runDev (fun d => pointChange d p.toNat) rfl hup (pointChange_of_busy _ hbusy)
  · exact ⟨_, exec_of_runDev (fun d => pointChange d p.toNat) rfl hup (pointChange_of_bad hbusy hp (pointOk_of_bad hbad)),
      rb_pokeBit_self d _ 30 true (by decide), rf_pokeBit_apart d _ 30 5 4 true (by decide) (by decide), rfl,
      only_pokeBit d _ 30 true⟩

/-! ### Monitor bins (R620) -/

theorem only_monCopy (d : Dev) (mm : Nat) :
    OnlyRegs d (monCopy d mm) (ra pgMon 0x300 :: (List.range 64).map (fun k => ra pgMon (0x400 + 4 * k))) :=
  only_trans (only_poke d _ 3 0 mm)
    (only_foldl_setReg (fun k => ra pgMon (0x400 + 4 * k)) (fun e b => BitVec.ofNat 32 (tat e.health.bins (64 * mm + b))) _ _)

theorem reg_monCopy_bin (d : Dev) (mm : Nat) {k : Nat} (hk : k < 64) :
    reg (monCopy d mm) (ra pgMon (0x400 + 4 * k)) = BitVec.ofNat 32 (tat d.health.bins (64 * mm + k)) := by
  refine reg_foldl_setReg (dst := fun k => ra pgMon (0x400 + 4 * k))
    (w := fun e b => BitVec.ofNat 32 (tat e.health.bins (64 * mm + b))) ?_ (fun _ _ _ _ => rfl) _ _ (List.mem_range.mpr hk)
  intro i j h
  have := ra_inj.mp h
  omega

theorem rf_monCopy_sel (d : Dev) (mm : Nat) : rf (monCopy d mm) (ra pgMon 0x300) 3 0 = mm % 16 := by
  unfold monCopy
  rw [rf_of_same (only_foldl_setReg (fun k => ra pgMon (0x400 + 4 * k))
    (fun e b => BitVec.ofNat 32 (tat e.health.bins (64 * mm + b))) _ _).1]
  · exact rf_poke_self d _ 3 0 mm (by decide)
  · intro hmem
    obtain ⟨k, -, hk⟩ := List.mem_map.mp hmem
    have := ra_inj.mp hk
    omega

/-- Settles O54, by what the copying loop writes. -/
theorem monitorBinsCopied : Obligations.MonitorBinsCopied := by
  intro s mm hup
  refine ⟨_, exec_of_runDev (fun d => monCopy d mm) rfl hup rfl, ?_, fun k => reg_monCopy_bin _ _ k.isLt, only_monCopy _ _⟩
  exact (rf_monCopy_sel _ _).trans (Nat.mod_eq_of_lt mm.isLt)

end Sys2Proof.Machine
end

/-! # Host writes as they reach the part (R657 to R668) -/

section
namespace Sys2Proof.Machine

/-! ### Addresses -/

theorem ra_div {pg o : Nat} (ho : o < 4096) : ra pg o / 4096 = pg := by
  unfold ra
  omega

theorem ra_mod {pg o : Nat} (ho : o < 4096) : ra pg o % 4096 = o := by
  unfold ra
  omega

theorem mapped_ra {pg o : Nat} (ho : o < 4096) : mapped (ra pg o) = (pageInfo pg).isSome := by
  rw [mapped, ra_div ho]

/-! ### From an access to the page that it names -/

theorem drainHeld_of_none {r : Dev × Mem × Boot} (h : r.1.pwr.held = []) : drainHeld r = r := by
  simp [drainHeld, h]

theorem drainHeld_of_down {r : Dev × Mem × Boot} (h : r.1.life ≠ .up) : drainHeld r = r := by
  simp [drainHeld, h]

theorem hostAccess_up {d : Dev} {x : HostAccess} (m : Mem) (b : Boot) (hup : d.life = .up) (hgo : waitsLpx d x = false) :
    hostAccess d m b x = drainHeld (accessUp d m b x) := by
  simp [hostAccess, accessOnce, hup, hgo]

theorem standby_of_alone {d : Dev} (h : pairEn d = false) : standby d = false := by simp [standby, h]

theorem mirrorOn_of_alone {d : Dev} (h : pairEn d = false) : mirrorOn d = false := by simp [mirrorOn, h]

/-- A part outside a Pairing mirrors nothing. -/
theorem hostWord_alone {d : Dev} (m : Mem) (b : Boot) (a : Nat) (v : Word) (h : pairEn d = false) :
    hostWord d m b a v = localWord d m b a v := by
  simp [hostWord, standby_of_alone h, mirrorOn_of_alone h]

section
variable {d : Dev} (m : Mem) (b : Boot) {pg o : Nat} (v : Word) (hup : d.life = .up) (halone : pairEn d = false)
  (hpg : (pageInfo pg).isSome = true) (hword : o % 4 = 0) (ho : o < 4096)
include hup halone hpg hword ho

/-- A write of a whole register that stands, on a part outside a Pairing. -/
theorem hostWrite_alone : hostWrite d m b (ra pg o) v = drainHeld (localWord d m b (ra pg o) v) := by
  have haligned : ra pg o % 4 = 0 := by
    unfold ra
    omega
  have haccess : accessUp d m b (.bar0Write (ra pg o) v 0xF) = localWord d m b (ra pg o) v := by
    simp [accessUp, mapped_ra ho, hpg, haligned, hostWord_alone m b _ v halone]
  rw [hostWrite, hostAccess_up m b hup rfl, haccess]

theorem hostWrite_header (hlow : o < 0x100) :
    hostWrite d m b (ra pg o) v = drainHeld (headerWrite d m b pg o v, m, b) := by
  rw [hostWrite_alone m b v hup halone hpg hword ho, localWord, ra_mod ho, if_neg (by omega), writeWord, ra_mod ho, ra_div ho,
    if_pos hlow]

theorem hostWrite_page (hupd : pg ≠ pgUpd) (hhigh : 0x100 ≤ o) : hostWrite d m b (ra pg o) v =
    drainHeld ((pageWrite d m b pg o v).1, (pageWrite d m b pg o v).2, b) := by
  rw [hostWrite_alone m b v hup halone hpg hword ho, localWord, ra_div ho, if_neg (by simp [hupd]), writeWord, ra_mod ho,
    ra_div ho, if_neg (by omega)]

/-- A write that changes the part alone, with no access waiting. -/
theorem hostWrite_page_dev {e : Dev} (hupd : pg ≠ pgUpd) (hhigh : 0x100 ≤ o) (hpage : pageWrite d m b pg o v = (e, m))
    (hheld : e.pwr.held = []) : hostWrite d m b (ra pg o) v = (e, m, b) := by
  rw [hostWrite_page m b v hup halone hpg hword ho hupd hhigh, hpage]
  exact drainHeld_of_none hheld

end

theorem exec_of_hostRow {i : Instr} {s : State} {a : Nat} {v : Word} {r : Dev × Mem × Boot} (hi : exec i s = hostRow s a v)
    (hr : hostWrite s.dev s.mem s.boot a v = r) : exec i s = .next (s.put r) := by
  rw [hi, ← hr]
  rfl

/-! ### What each page does with a write -/

/-- The pages beside those of the camera ports, the wales and the Limileri ports have no lane to scan. -/
theorem laneOf_of_page {pg : Nat} (o : Nat) (h : 0x236 ≤ pg ∨ 0x30 ≤ pg ∧ pg < 0x231) : laneOf pg o = none := by
  simp only [laneOf]
  rw [dif_neg (by omega), dif_neg (by omega), ite_self]

/-- They bound no group either, but for LPX, THERM and AVS. -/
theorem isBound_of_page {pg o : Nat} (ho : o < 4096) (h : 0x236 ≤ pg ∨ 0x200 ≤ pg ∧ pg < 0x231) (hlpx : pg ≠ pgLpx)
    (htherm : pg ≠ pgTherm) (havs : pg ≠ pgAvs) : isBound (ra pg o) = false := by
  unfold pgLpx at hlpx
  unfold pgTherm at htherm
  unfold pgAvs at havs
  have hnone : loopGroup (ra pg o) = none := by
    rw [loopGroup, ra_div ho]
    dsimp only
    rw [if_neg (by omega), if_neg (by omega), if_neg (by omega), if_neg (by omega), if_neg (by omega), if_neg (by omega)]
  rw [isBound, hnone]

section
variable (d : Dev) (m : Mem) (b : Boot) {o : Nat} (v : Word) (ho : o < 4096)
include ho

theorem pageWrite_trk : pageWrite d m b pgTrk o v = (trkWrite d m o v, m) := by
  have hplain : isBound (ra pgTrk o) = false := isBound_of_page ho (by decide) (by decide) (by decide) (by decide)
  simp only [pageWrite, hplain, Bool.false_eq_true, if_false]
  simp [laneOf_of_page, pgTrk, pgDev, pgEnc]

theorem pageWrite_border : pageWrite d m b pgBorder o v = (borderWrite d o v, m) := by
  have hplain : isBound (ra pgBorder o) = false := isBound_of_page ho (by decide) (by decide) (by decide) (by decide)
  simp only [pageWrite, hplain, Bool.false_eq_true, if_false]
  simp [laneOf_of_page, pgBorder, pgTrk, pgDev, pgEnc]

theorem pageWrite_hif : pageWrite d m b pgHif o v = (hifWrite d o v, m) := by
  have hplain : isBound (ra pgHif o) = false := isBound_of_page ho (by decide) (by decide) (by decide) (by decide)
  simp only [pageWrite, hplain, Bool.false_eq_true, if_false]
  simp [laneOf_of_page, pgHif, pgBorder, pgTrk, pgDev, pgEnc]

theorem pageWrite_fab : pageWrite d m b pgFab o v = (fabWrite d m o v, m) := by
  have hplain : isBound (ra pgFab o) = false := isBound_of_page ho (by decide) (by decide) (by decide) (by decide)
  simp only [pageWrite, hplain, Bool.false_eq_true, if_false]
  simp [laneOf_of_page, pgFab, pgHif, pgBorder, pgTrk, pgDev, pgEnc, pgLpx, pgHist, pgQdr]

theorem pageWrite_time : pageWrite d m b pgTime o v = (timeWrite d (timeA o) v, m) := by
  have hplain : isBound (ra pgTime o) = false := isBound_of_page ho (by decide) (by decide) (by decide) (by decide)
  simp only [pageWrite, hplain, Bool.false_eq_true, if_false]
  simp [laneOf_of_page, timeA, pgTime, pgFab, pgHif, pgBorder, pgTrk, pgDev, pgEnc, pgLpx, pgHist,
    pgQdr]

end

theorem pageWrite_req (d : Dev) (m : Mem) (b : Boot) (v : Word) :
    pageWrite d m b pgPwr 0x100 v = (reqWrite d m b (fld v 1 0), m) := by
  have hplain : isBound (ra pgPwr 0x100) = false := isBound_of_page (by decide) (by decide) (by decide) (by decide) (by decide)
  simp only [pageWrite, hplain, Bool.false_eq_true, if_false]
  simp [laneOf_of_page, pgPwr, pgTime, pgPtp, pgPair, pgWkr, pgIntc, pgFab, pgHif, pgBorder, pgTrk, pgDev, pgEnc, pgLpx, pgHist,
    pgQdr]

/-- A host write with a row of its own, where the page's rule changes the part alone. -/
theorem exec_of_pageRow {i : Instr} {s : State} {pg o : Nat} {v : Word} {e : Dev} (hi : exec i s = hostRow s (ra pg o) v)
    (hup : s.dev.life = .up) (halone : pairEn s.dev = false) (hheld : s.dev.pwr.held = []) (hpg : (pageInfo pg).isSome = true)
    (hword : o % 4 = 0 ∧ 0x100 ≤ o ∧ o < 4096) (hupd : pg ≠ pgUpd)
    (hpage : pageWrite s.dev s.mem s.boot pg o v = (e, s.mem)) (hpwr : e.pwr = s.dev.pwr) : exec i s = .next (s.withDev e) := by
  obtain ⟨haligned, hhigh, ho⟩ := hword
  exact exec_of_hostRow hi
    (hostWrite_page_dev s.mem s.boot v hup halone hpg haligned ho hupd hhigh hpage (by rw [hpwr, hheld]))

end Sys2Proof.Machine
end

/-! # Host writes that the part clips or refuses -/

section
namespace Sys2Proof.Machine

/-! ### TIME_SLEW_MAX (R494) -/

/-- The register and the flag that a write of TIME_SLEW_MAX leaves, before AT_LIMIT follows. -/
def slewStored (d : Dev) (v : Nat) : Dev :=
  poke (if max 10738 (min v 2147483) = v then d else pokeBit d (timeA 0x104) 28 true) (timeA 0x11C) 21 0
    (max 10738 (min v 2147483))

theorem slewWrite_eq (d : Dev) (v : Nat) : slewWrite d v = timeLimit (slewStored d v) := rfl

theorem same_timeLimit (d : Dev) : SameRegs d (timeLimit d) [ra pgTime 0x010] := by
  unfold timeLimit
  dsimp only
  split
  · exact same_evt _ pgTime 3
  · exact fun a _ => rfl

theorem pwr_timeLimit (d : Dev) : (timeLimit d).pwr = d.pwr := by
  unfold timeLimit
  dsimp only
  split
  · exact evt_pwr _ pgTime 3
  · rfl

theorem pwr_slewStored (d : Dev) (v : Nat) : (slewStored d v).pwr = d.pwr := by
  unfold slewStored
  split <;> rfl

theorem same_slewStored (d : Dev) (v : Nat) : SameRegs d (slewStored d v) [timeA 0x104, timeA 0x11C] :=
  same_trans (same_ite (same_refl d _) (same_mono (same_setReg d _ _) (by simp))) (same_mono (same_setReg _ _ _) (by simp))

theorem rb_slewStored (d : Dev) (v : Nat) :
    rb (slewStored d v) (timeA 0x104) 28 = (rb d (timeA 0x104) 28 || decide (v < 10738 ∨ 2147483 < v)) := by
  rw [slewStored, rb_of_same (only_poke _ _ 21 0 _).1 (by simp)]
  split
  · have hin : ¬ (v < 10738 ∨ 2147483 < v) := by omega
    simp [hin]
  · have hout : v < 10738 ∨ 2147483 < v := by omega
    simp [hout, rb_pokeBit_self]

theorem rf_slewStored (d : Dev) (v : Nat) : rf (slewStored d v) (timeA 0x11C) 21 0 = max 10738 (min v 2147483) := by
  rw [slewStored, rf_poke_self _ _ 21 0 _ (by decide)]
  omega

theorem timeWrite_slewMax (d : Dev) (v : Word) : timeWrite d (timeA 0x11C) v = slewWrite d (fld v 21 0) := by
  simp [timeWrite, timeRefused, timeA, ptpA, ra, pgTime, pgPtp]

/-- Settles O38: what is stored is the value cut to the two limits, and the flag tells of the cut. -/
theorem slewMaximumIsClipped : Obligations.SlewMaximumIsClipped := by
  intro s v hup halone hheld d
  have hpage : pageWrite d s.mem s.boot pgTime 0x11C v = (slewWrite d (fld v 21 0), s.mem) := by
    rw [pageWrite_time d s.mem s.boot v (by decide), timeWrite_slewMax]
  have hlimit := same_timeLimit (slewStored d (fld v 21 0))
  refine ⟨slewWrite d (fld v 21 0), exec_of_pageRow rfl hup halone hheld (by decide) (by decide) (by decide) hpage
    ((pwr_timeLimit _).trans (pwr_slewStored d _)), ?_, ?_, ?_⟩
  · rw [slewWrite_eq, rf_of_same hlimit (by simp), rf_slewStored]
  · rw [slewWrite_eq, rb_of_same hlimit (by simp), rb_slewStored]
  · exact same_trans (same_mono (same_slewStored d _) (by simp)) (same_mono hlimit (by simp))

end Sys2Proof.Machine
end

/-! # Host writes that are refused -/

section
namespace Sys2Proof.Machine

/-! ### A register without shadow fields takes what is written (R660) -/

theorem storeReg_open (d : Dev) {a k : Nat} {r : RegRow} (v : Word) (hrow : regRow a = some (r, k)) (hsh : r.sh = 0) :
    storeReg d a v = setReg d a (writtenWord r false (reg d a) v) := by
  simp [storeReg, hrow, hsh]

theorem reg64_of_same {d e : Dev} {as : List Nat} (h : SameRegs d e as) {a : Nat} (hlo : a ∉ as) (hhi : a + 4 ∉ as) :
    reg64 e a = reg64 d a := by
  simp only [reg64, h a hlo, h (a + 4) hhi]

/-! ### FAB_EPOCH_GO (R484) -/

/-- What makes a node the master stands in its configuration, its ID and the nodes that it hears. -/
theorem masterId_congr {d e : Dev} {as : List Nat} (h : SameRegs d e as) (hnode : e.node = d.node) (hcfg : ra pgFab 0x100 ∉ as)
    (hid : ra pgFab 0x104 ∉ as) : masterId e = masterId d := by
  have hmine : (selfNode e).id = (selfNode d).id := rf_of_same h hid 5 0
  have hvalid : (selfNode e).idValid = (selfNode d).idValid := rb_of_same h hid 31
  have hmaster : (selfNode e).master = (selfNode d).master := rb_of_same h hcfg 29
  simp only [masterId, hnode, List.filter_cons, hmaster, hvalid, apply_ite (List.map fun n : SeenNode => n.id), List.map_cons, hmine]

theorem isMaster_congr {d e : Dev} {as : List Nat} (h : SameRegs d e as) (hnode : e.node = d.node) (hcfg : ra pgFab 0x100 ∉ as)
    (hid : ra pgFab 0x104 ∉ as) : isMaster e = isMaster d := by
  have hon : fabOn e = fabOn d := rb_of_same h hcfg 31
  have hvalid : idValid e = idValid d := rb_of_same h hid 31
  have hmine : myId e = myId d := rf_of_same h hid 5 0
  simp only [isMaster, hon, hvalid, rb_of_same h hcfg, masterId_congr h hnode hcfg hid, hmine]

theorem epochGo_refused {d : Dev} (m : Mem) (h : rb d epochStatA 31 = true ∨
    reg64 d (ra pgFab 0x134) < d.pos.sysLine + rf d (ra pgFab 0x12C) 15 0 ∨ reg d (ra pgFab 0x130) = 0 ∨ isMaster d = false) :
    epochGo d m = poke d epochStatA 30 28 4 := by
  refine if_pos ?_
  obtain h | h | h | h := h
  · exact .inl h
  · exact .inr (.inl h)
  · exact .inr (.inr (.inl (by rw [h]; rfl)))
  · exact .inr (.inr (.inr (.inl (by rw [h]; rfl))))

theorem row_epochGo : (regRow (ra pgFab 0x13C)).map (fun r => r.1.sh) = some 0 := by decide +kernel

/-- Settles O41: GO is stored, and what refuses it stands in other registers. -/
theorem epochStartRefused : Obligations.EpochStartRefused := by
  intro s v hup halone hheld d h
  obtain ⟨⟨r, k⟩, hrow, hsh⟩ := Option.map_eq_some_iff.mp row_epochGo
  let z := setReg d (ra pgFab 0x13C) (writtenWord r false (reg d (ra pgFab 0x13C)) (v ||| 0x80000000))
  have hz : SameRegs d z [ra pgFab 0x13C] := same_setReg _ _ _
  have hgo : bitOf (v ||| 0x80000000) 31 = true := by simp [bitOf]
  have hrefused : epochGo z s.mem = poke z epochStatA 30 28 4 := by
    refine epochGo_refused s.mem ?_
    rwa [rb_of_same hz (by decide), reg64_of_same hz (by decide) (by decide), rf_of_same hz (by decide), hz _ (by decide),
      isMaster_congr hz rfl (by decide) (by decide)]
  have hpage : pageWrite d s.mem s.boot pgFab 0x13C (v ||| 0x80000000) = (poke z epochStatA 30 28 4, s.mem) := by
    rw [pageWrite_fab d s.mem s.boot _ (by decide), fabWrite, if_neg (by decide), if_pos rfl, storeReg_open d _ hrow hsh]
    simp only [hgo, if_true]
    rw [hrefused]
  exact ⟨_, exec_of_pageRow rfl hup halone hheld (by decide) (by decide) (by decide) hpage rfl,
    rf_poke_self z epochStatA 30 28 4 (by decide), rfl, rfl,
    only_mono (only_trans (only_setReg d _ _) (only_poke z epochStatA 30 28 4)) (by simp)⟩

/-! ### COMMIT_MODE and COMMIT_POS of an armed page (R661) -/

theorem headerWrite_armed {d : Dev} (m : Mem) (b : Boot) {pg o : Nat} {v : Word} (hshadow : isShadowPage pg = true)
    (harmed : (armOf d pg).armed = true) (h : (o = 0x028 ∧ bitOf v 29 = false) ∨ o = 0x02C ∨ o = 0x030) :
    headerWrite d m b pg o v = markLocked d pg := by
  obtain ⟨rfl, hstay⟩ | rfl | rfl := h <;> simp [headerWrite, commitModeWrite, *]

/-- Settles O50: the write ends in the note of a discarded shadow write. -/
theorem armedPageRefusesCommitWrites : Obligations.ArmedPageRefusesCommitWrites := by
  intro s pg o v hup halone hheld hpg hshadow harmed ho
  have hwrite : hostWrite s.dev s.mem s.boot (ra pg o) v = (markLocked s.dev pg, s.mem, s.boot) := by
    rw [hostWrite_header s.mem s.boot v hup halone hpg (by omega) (by omega) (by omega),
      headerWrite_armed s.mem s.boot hshadow harmed ho]
    exact drainHeld_of_none hheld
  exact ⟨_, exec_of_hostRow rfl hwrite, rb_pokeBit_self _ _ 6 true (by decide), rfl, rfl, only_pokeBit _ _ 6 true⟩

/-! ### Ring indices (R354) -/

theorem ringA_inj {rr o o' : Nat} : ringA rr o = ringA rr o' ↔ o = o' := by
  simp [ringA, ra_inj]

theorem pageWrite_prod (d : Dev) (m : Mem) (b : Boot) (v : Word) :
    pageWrite d m b pgHif (0x100 + 0x40 * 3 + 12) v = (doorbellWrite d v, m) := by
  rw [pageWrite_hif d m b v (by decide)]
  simp [hifWrite]

theorem pageWrite_cons (d : Dev) (m : Mem) (b : Boot) (rr : Fin 5) (v : Word) :
    pageWrite d m b pgHif (0x100 + 0x40 * rr + 16) v = (consWrite d rr v, m) := by
  have hlow : ¬ (0x100 + 0x40 * rr.val + 16 < 0x100 ∨ 0x240 ≤ 0x100 + 0x40 * rr.val + 16) := by omega
  have hring : (0x100 + 0x40 * rr.val + 16 - 0x100) / 0x40 = rr := by omega
  have hoff : (0x100 + 0x40 * rr.val + 16) % 0x40 = 16 := by omega
  rw [pageWrite_hif d m b v (by omega)]
  simp only [hifWrite, if_neg hlow, hring, hoff]
  simp

/-- A write of a ring's CONS, where the ring's rule leaves the accesses that wait as they are. -/
theorem exec_ringConsWrite {s : State} (rr : Fin 5) (v : Word) {e : Dev} (hup : s.dev.life = .up) (halone : pairEn s.dev = false)
    (hheld : s.dev.pwr.held = []) (he : consWrite s.dev rr v = e) (hpwr : e.pwr = s.dev.pwr) :
    exec (.ringConsWrite rr v) s = .next (s.withDev e) := by
  have hword : (0x100 + 0x40 * rr.val + 16) % 4 = 0 ∧ 0x100 ≤ 0x100 + 0x40 * rr.val + 16 ∧ 0x100 + 0x40 * rr.val + 16 < 4096 := by
    omega
  exact exec_of_pageRow rfl hup halone hheld (by decide) hword (by decide)
    ((pageWrite_cons s.dev s.mem s.boot rr v).trans (by rw [he])) hpwr

/-- Settles O51: each write of an index ends in its refusal. -/
theorem ringIndicesAreChecked : Obligations.RingIndicesAreChecked := by
  intro s v hup halone hheld d
  refine ⟨fun hlong => ?_, fun r hr hlong => ?_, ?_⟩
  · have hpage : pageWrite d s.mem s.boot pgHif (0x100 + 0x40 * 3 + 12) v =
        (evt (pokeBit d (ringA 3 28) 28 true) pgHif 7, s.mem) := by
      rw [pageWrite_prod, doorbellWrite, if_pos hlong]
    refine ⟨_, exec_of_pageRow rfl hup halone hheld (by decide) (by decide) (by decide) hpage (evt_pwr _ pgHif 7), ?_,
      rb_evt_self _ pgHif 7 (by decide), only_trans (only_pokeBit d _ 28 true) (only_evt _ pgHif 7)⟩
    rw [rb_of_same (same_evt _ pgHif 7) (by decide), rb_pokeBit_self d _ 28 true (by decide)]
  · have hcons : consWrite d r v = ringRefuse d r := by
      have hhost : ¬ r.val = 3 := fun h => hr (Fin.ext h)
      rw [consWrite, if_neg hhost, if_pos hlong]
    exact ⟨_, exec_ringConsWrite r v hup halone hheld hcons rfl, rb_pokeBit_self d _ 30 true (by decide), only_pokeBit d _ 30 true⟩
  · exact exec_ringConsWrite 3 v hup halone hheld (if_pos rfl) rfl

/-! ### Requests of the power state (R572) -/

theorem pwrA_ne_evtPend {o : Nat} (h : o ≠ 0x010) : pwrA o ∉ [ra pgPwr 0x010] := by
  simpa [pwrA, ra_inj] using h

theorem only_pwrRefuse (d : Dev) (cause : Nat) : OnlyRegs d (pwrRefuse d cause) [pwrA 0x104, ra pgPwr 0x010] :=
  only_mono (only_trans (only_trans (only_pokeBit d (pwrA 0x104) 27 true) (only_poke _ (pwrA 0x104) 26 24 cause)) (only_evt _ pgPwr 2))
    (by simp)

theorem only_pwrShow (d : Dev) (st : Nat) : OnlyRegs d (pwrShow d st) [pwrA 0x104, ra pgPwr 0x010] :=
  only_mono (only_trans (only_trans (only_poke d (pwrA 0x104) 31 30 st) (only_pokeBit _ (pwrA 0x104) 29 _)) (only_evt _ pgPwr 0))
    (by simp)

theorem pwrStat_pwrRefuse (d : Dev) (cause : Nat) : reg (pwrRefuse d cause) (pwrA 0x104) =
    reg (poke (pokeBit d (pwrA 0x104) 27 true) (pwrA 0x104) 26 24 cause) (pwrA 0x104) :=
  same_evt _ pgPwr 2 _ (pwrA_ne_evtPend (by decide))

theorem pwrState_pwrShow (d : Dev) (st : Nat) : pwrState (pwrShow d st) = st % 4 := by
  rw [pwrState, pwrShow, rf_of_same (same_evt _ pgPwr 0) (pwrA_ne_evtPend (by decide)),
    rf_pokeBit_apart _ _ 29 31 30 _ (by decide) (by decide)]
  exact rf_poke_self _ _ 31 30 _ (by decide)

theorem pwrState_pwrRefuse (d : Dev) (cause : Nat) : pwrState (pwrRefuse d cause) = pwrState d := by
  rw [pwrState, pwrRefuse, rf_of_same (same_evt _ pgPwr 2) (pwrA_ne_evtPend (by decide)),
    rf_poke_apart _ _ 26 24 _ 31 30 (by decide) (by decide), rf_pokeBit_apart _ _ 27 31 30 _ (by decide) (by decide), pwrState]

theorem rb_pwrRefuse (d : Dev) (cause : Nat) : rb (pwrRefuse d cause) (pwrA 0x104) 27 = true := by
  rw [pwrRefuse, rb_of_same (same_evt _ pgPwr 2) (pwrA_ne_evtPend (by decide)),
    rb_poke_apart _ _ 26 24 _ 27 (by decide) (by decide), rb_pokeBit_self _ _ 27 true (by decide)]

theorem rf_pwrRefuse (d : Dev) (cause : Nat) : rf (pwrRefuse d cause) (pwrA 0x104) 26 24 = cause % 8 := by
  rw [pwrRefuse, rf_of_same (same_evt _ pgPwr 2) (pwrA_ne_evtPend (by decide))]
  exact rf_poke_self _ _ 26 24 _ (by decide)

theorem exec_reqIdle {s : State} {e : Dev} (hup : s.dev.life = .up) (halone : pairEn s.dev = false) (hheld : s.dev.pwr.held = [])
    (he : reqIdle s.dev = e) (hpwr : e.pwr = s.dev.pwr) : exec .reqIdle s = .next (s.withDev e) := by
  have hpage : pageWrite s.dev s.mem s.boot pgPwr 0x100 1 = (e, s.mem) := by
    rw [pageWrite_req, show fld 1 1 0 = 1 from rfl]
    exact congrArg (·, s.mem) he
  exact exec_of_pageRow rfl hup halone hheld (by decide) (by decide) (by decide) hpage hpwr

theorem exec_reqRun {s : State} {e : Dev} (hup : s.dev.life = .up) (halone : pairEn s.dev = false) (hheld : s.dev.pwr.held = [])
    (he : reqRun s.dev = e) (hpwr : e.pwr = s.dev.pwr) : exec .reqRun s = .next (s.withDev e) := by
  have hpage : pageWrite s.dev s.mem s.boot pgPwr 0x100 0 = (e, s.mem) := by
    rw [pageWrite_req, show fld 0 1 0 = 0 from rfl]
    exact congrArg (·, s.mem) he
  exact exec_of_pageRow rfl hup halone hheld (by decide) (by decide) (by decide) hpage hpwr

/-- Settles O55: in Run a request for Idle ends in its refusal or in Idle shown; every other request of the two stands. -/
theorem idleRequests : Obligations.IdleRequests := by
  intro s hup halone hheld d
  refine ⟨fun hrun hbusy => ?_, fun hrun hfree => ?_, fun hidle => ?_, fun hrun => ?_⟩
  · have hreq : reqIdle d = pwrRefuse d 1 := by rw [reqIdle, if_pos hrun, if_pos hbusy]
    exact ⟨_, exec_reqIdle hup halone hheld hreq (evt_pwr _ pgPwr 2), rb_pwrRefuse d 1, rf_pwrRefuse d 1,
      (pwrState_pwrRefuse d 1).trans hrun, rb_evt_self _ pgPwr 2 (by decide), only_pwrRefuse d 1⟩
  · have hreq : reqIdle d = pwrShow d 1 := by rw [reqIdle, if_pos hrun, hfree]; rfl
    exact ⟨_, exec_reqIdle hup halone hheld hreq (evt_pwr _ pgPwr 0), pwrState_pwrShow d 1, rb_evt_self _ pgPwr 0 (by decide),
      only_pwrShow d 1⟩
  · exact exec_reqIdle hup halone hheld (if_neg (by rw [hidle]; decide)) rfl
  · exact exec_reqRun hup halone hheld (if_neg (by rw [hrun]; decide)) rfl

end Sys2Proof.Machine
end

/-! # Verdicts, refused accesses and the update window -/

section
namespace Sys2Proof.Machine

/-! ### A byte of a 64-bit word -/

/-- The 64-bit word `w` with its byte at bit `lo` replaced. -/
def putByte (w : Dword) (lo v : Nat) : Dword := (w &&& ~~~ dpack [(lo, 8, 0xFF)]) ||| dpack [(lo, 8, v)]

theorem dpack_one (lo n v : Nat) : dpack [(lo, n, v)] = BitVec.ofNat 64 ((v % 2 ^ n) <<< lo) := BitVec.or_zero

theorem dpack_byte_getLsbD (lo v : Nat) {j : Nat} (hj : j < 64) :
    (dpack [(lo, 8, v)]).getLsbD j = (decide (lo ≤ j) && decide (j - lo < 8) && v.testBit (j - lo)) := by
  rw [dpack_one, BitVec.getLsbD_ofNat, Nat.testBit_shiftLeft, Nat.testBit_mod_two_pow]
  simp [hj, Bool.and_assoc]

theorem testBit_byteMask {i : Nat} (hi : i < 8) : Nat.testBit 0xFF i = true := by
  decide +revert

theorem putByte_getLsbD (w : Dword) (lo v : Nat) {j : Nat} (hj : j < 64) :
    (putByte w lo v).getLsbD j = if lo ≤ j ∧ j < lo + 8 then v.testBit (j - lo) else w.getLsbD j := by
  rw [putByte, BitVec.getLsbD_or, BitVec.getLsbD_and, BitVec.getLsbD_not, dpack_byte_getLsbD lo _ hj, dpack_byte_getLsbD lo _ hj]
  by_cases hin : lo ≤ j ∧ j < lo + 8
  · have hbyte : j - lo < 8 := by omega
    rw [if_pos hin, testBit_byteMask hbyte]
    simp [hin.1, hbyte, hj]
  · have hout : (decide (lo ≤ j) && decide (j - lo < 8)) = false := by
      simp only [Bool.and_eq_false_iff, decide_eq_false_iff_not]
      omega
    simp only [if_neg hin, hout, hj]
    simp

theorem dfld_putByte (w : Dword) {lo v : Nat} (hlo : lo + 8 ≤ 64) (hv : v < 256) : dfld (putByte w lo v) (lo + 7) lo = v := by
  apply Nat.eq_of_testBit_eq
  intro i
  rw [dfld, natField, show lo + 7 + 1 - lo = 8 by omega, Nat.testBit_mod_two_pow, Nat.testBit_shiftRight, BitVec.testBit_toNat]
  by_cases hi : i < 8
  · rw [putByte_getLsbD w lo v (by omega), if_pos (by omega)]
    simp [hi]
  · rw [Nat.testBit_lt_two_pow (Nat.lt_of_lt_of_le (show v < 2 ^ 8 from hv) (Nat.pow_le_pow_right Nat.two_pos (by omega)))]
    simp [hi]

/-! ### Verdicts (R346, R347) -/

/-- The record that a verdict names is pending. -/
def verdictHits (seq : Nat) (r : StoreRec) : Bool := !r.relayed && decide (r.seq = seq) && r.due.isSome

theorem verdictHits_iff {seq : Nat} {r : StoreRec} : verdictHits seq r = true ↔ r.relayed = false ∧ r.seq = seq ∧ r.due ≠ none := by
  simp [verdictHits, Option.isSome_iff_ne_none, and_assoc]

/-- A record with the class and the confidence that the verdict word `lo` gives it. -/
def judged (lo : Word) (r : StoreRec) : StoreRec :=
  { r with due := none, body := { r.body with w0 := putByte r.body.w0 40 (fld lo 15 8), w1 := putByte r.body.w1 8 (fld lo 7 0) } }

/-- The sequence number that a verdict names. -/
def verdictSeq (lo hi : Word) : Nat := fld lo 31 16 + 65536 * hi.toNat

theorem verdict_eq (d : Dev) (hi : Word) : verdict d hi =
    let lo := reg d (ra pgBorder 0x114)
    if d.border.store.any (verdictHits (verdictSeq lo hi)) then
      { d with border := { d.border with
          store := d.border.store.map fun r => if verdictHits (verdictSeq lo hi) r then judged lo r else r } }
    else count d (ra pgBorder 0x148) := rfl

theorem fld_lt (w : Word) {hi lo : Nat} : fld w hi lo < 2 ^ (hi + 1 - lo) := by
  rw [fld, natField]
  exact Nat.mod_lt _ (Nat.two_pow_pos _)

theorem pageWrite_verdict (d : Dev) (m : Mem) (b : Boot) (v : Word) :
    pageWrite d m b pgBorder 0x118 v = (verdict (setReg d (ra pgBorder 0x118) v) v, m) := by
  rw [pageWrite_border d m b v (by decide)]
  simp [borderWrite]

/-- The part after a verdict, the word that names it stored. -/
def afterVerdict (d : Dev) (hi : Word) : Dev := verdict (setReg d (ra pgBorder 0x118) hi) hi

theorem afterVerdict_hit {d : Dev} {hi : Word}
    (h : d.border.store.any (verdictHits (verdictSeq (reg d (ra pgBorder 0x114)) hi)) = true) :
    afterVerdict d hi = { setReg d (ra pgBorder 0x118) hi with border := { d.border with
      store := d.border.store.map fun r => if verdictHits (verdictSeq (reg d (ra pgBorder 0x114)) hi) r
        then judged (reg d (ra pgBorder 0x114)) r else r } } := by
  have hlo : reg (setReg d (ra pgBorder 0x118) hi) (ra pgBorder 0x114) = reg d (ra pgBorder 0x114) :=
    same_setReg d _ hi _ (by decide)
  rw [afterVerdict, verdict_eq]
  dsimp only
  rw [hlo]
  exact if_pos h

theorem afterVerdict_miss {d : Dev} {hi : Word}
    (h : d.border.store.any (verdictHits (verdictSeq (reg d (ra pgBorder 0x114)) hi)) = false) :
    afterVerdict d hi = count (setReg d (ra pgBorder 0x118) hi) (ra pgBorder 0x148) := by
  have hlo : reg (setReg d (ra pgBorder 0x118) hi) (ra pgBorder 0x114) = reg d (ra pgBorder 0x114) :=
    same_setReg d _ hi _ (by decide)
  rw [afterVerdict, verdict_eq]
  dsimp only
  rw [hlo]
  exact if_neg (by rw [show (setReg d (ra pgBorder 0x118) hi).border = d.border from rfl, h]; decide)

theorem pwr_afterVerdict (d : Dev) (hi : Word) : (afterVerdict d hi).pwr = d.pwr := by
  cases h : d.border.store.any (verdictHits (verdictSeq (reg d (ra pgBorder 0x114)) hi))
  · rw [afterVerdict_miss h]
    rfl
  · rw [afterVerdict_hit h]
    rfl

/-- Settles O52: a hit judges each record that it names, a miss only counts. -/
theorem verdictChangesClassAndConfidence : Obligations.VerdictChangesClassAndConfidence := by
  intro s hi hup halone hheld d seq hit
  have hhit : ∀ r : StoreRec, hit r ↔ verdictHits seq r = true := fun r => verdictHits_iff.symm
  refine ⟨afterVerdict d hi, exec_of_pageRow rfl hup halone hheld (by decide) (by decide) (by decide)
    (pageWrite_verdict d s.mem s.boot hi) (pwr_afterVerdict d hi), ?_⟩
  cases hany : d.border.store.any (verdictHits seq)
  · have hmiss : ∀ r ∈ d.border.store, ¬ hit r := by
      simpa [hhit] using hany
    rw [afterVerdict_miss hany]
    refine ⟨rfl, fun k r hr _ => hr, fun k r hr hr' => absurd hr' (hmiss r (List.mem_of_getElem? hr)), fun _ => ?_,
      (only_trans (only_setReg d _ hi) (only_count _ _)).1, rfl, rfl⟩
    rw [count, rf_countBy_self _ _ 31 0 1 (by decide), rf_of_same (same_setReg d _ hi) (by decide)]
  · rw [afterVerdict_hit hany]
    refine ⟨List.length_map _, fun k r hr hr' => ?_, fun k r hr hr' => ⟨judged (reg d (ra pgBorder 0x114)) r, ?_,
      dfld_putByte r.body.w0 (by decide) (fld_lt _), dfld_putByte r.body.w1 (by decide) (fld_lt _),
      fun j hj hout => (putByte_getLsbD r.body.w0 40 _ hj).trans (if_neg (by omega)),
      fun j hj hout => (putByte_getLsbD r.body.w1 8 _ hj).trans (if_neg (by omega)), rfl, rfl⟩,
      fun hmiss => ?_, same_mono (same_setReg d _ hi) (by simp), rfl, rfl⟩
    · have hfalse : verdictHits seq r = false := by simpa [hhit] using hr'
      simp [List.getElem?_map, hr, show verdictSeq (reg d (ra pgBorder 0x114)) hi = seq from rfl, hfalse]
    · simp [List.getElem?_map, hr, show verdictSeq (reg d (ra pgBorder 0x114)) hi = seq from rfl, (hhit r).mp hr']
    · obtain ⟨r, hr, hr'⟩ := List.any_eq_true.mp hany
      exact absurd ((hhit r).mpr hr') (hmiss r hr)

/-! ### Accesses that are not taken (R667) -/

theorem accessUp_bad_write {d : Dev} (m : Mem) (b : Boot) {a : Nat} (v : Word) {be : BitVec 4}
    (h : mapped a = false ∨ a % 4 ≠ 0 ∨ be ≠ 0xF) : accessUp d m b (.bar0Write a v be) = (badBar0 d true a 4, m, b) := by
  refine if_neg ?_
  simp only [Bool.and_eq_true, decide_eq_true_eq, beq_iff_eq]
  rintro ⟨⟨hmap, hword⟩, hbytes⟩
  obtain h | h | h := h
  · simp [hmap] at h
  · exact h hword
  · exact h hbytes

theorem accessUp_bad_read {d : Dev} (m : Mem) (b : Boot) {a : Nat} (h : mapped a = false ∨ a % 4 ≠ 0) :
    accessUp d m b (.bar0Read a) = (badBar0 d false a 4, m, b) := by
  refine if_neg ?_
  simp only [Bool.and_eq_true, decide_eq_true_eq]
  rintro ⟨hmap, hword⟩
  obtain h | h := h
  · simp [hmap] at h
  · exact h hword

/-- An access of a running part that is answered at once and changes the part alone. -/
theorem exec_of_access {s : State} {x : HostAccess} {e : Dev} (hup : s.dev.life = .up) (hheld : s.dev.pwr.held = [])
    (hgo : waitsLpx s.dev x = false) (haccess : accessUp s.dev s.mem s.boot x = (e, s.mem, s.boot)) (hpwr : e.pwr = s.dev.pwr) :
    exec (.registerWrite x) s = .next (s.withDev e) := by
  have hone : hostAccess s.dev s.mem s.boot x = (e, s.mem, s.boot) := by
    rw [hostAccess_up s.mem s.boot hup hgo, haccess]
    exact drainHeld_of_none (by rw [hpwr, hheld])
  exact congrArg (fun r => Host.Outcome.next (s.put r)) hone

theorem wpack_badAccess_write (a : Nat) : wpack [(31, 1, 1), (30, 1, 0), (0, 30, a)] = wpack [(31, 1, 1), (0, 30, a)] := by
  simp [wpack]

theorem wpack_badAccess_read (a : Nat) : wpack [(31, 1, 0), (30, 1, 0), (0, 30, a)] = wpack [(0, 30, a)] := by
  simp [wpack]

theorem reg_badAccess (d : Dev) (write : Bool) (a : Nat) : reg (badAccess d write false a) (ra pgDev 0x10C) =
    wpack [(31, 1, write.toNat), (30, 1, 0), (0, 30, a)] := by
  rw [badAccess, (only_count _ _).1 _ (by decide), reg_setReg_self]
  rfl

theorem rf_badAccess (d : Dev) (write : Bool) (a : Nat) : rf (badAccess d write false a) (ra pgDev 0x110) 31 0 =
    satInc 32 (rf d (ra pgDev 0x110) 31 0) 1 := by
  rw [badAccess, count, rf_countBy_self _ _ 31 0 1 (by decide), rf_of_same (same_setReg d _ _) (by decide)]

theorem only_badAccess (d : Dev) (write : Bool) (a : Nat) :
    OnlyRegs d (badAccess d write false a) [ra pgDev 0x10C, ra pgDev 0x110] :=
  only_trans (only_setReg d _ _) (only_count _ _)

/-- Settles O47: each access that is not taken ends in its note on the DEV page or on the page it names. -/
theorem refusedAccessesAreNoted : Obligations.RefusedAccessesAreNoted := by
  intro s a v be hup hheld d
  have write {e : Dev} (h : mapped a = false ∨ a % 4 ≠ 0 ∨ be ≠ 0xF) (he : badBar0 d true a 4 = e) (hpwr : e.pwr = d.pwr) :
      exec (.registerWrite (.bar0Write a v be)) s = .next (s.withDev e) :=
    exec_of_access hup hheld rfl (by rw [accessUp_bad_write s.mem s.boot v h, he]) hpwr
  have read {e : Dev} (h : mapped a = false ∨ a % 4 ≠ 0) (he : badBar0 d false a 4 = e) (hpwr : e.pwr = d.pwr) :
      exec (.registerWrite (.bar0Read a)) s = .next (s.withDev e) :=
    exec_of_access hup hheld rfl (by rw [accessUp_bad_read s.mem s.boot h, he]) hpwr
  refine ⟨fun hmap _ => ⟨?_, ?_⟩, fun hmap => ⟨fun hbad => ?_, fun hbad => ?_⟩⟩
  · have hnoted : badBar0 d true a 4 = badAccess d true false a := by simp [badBar0, hmap]
    exact ⟨_, write (.inl hmap) hnoted rfl, (reg_badAccess d true a).trans (wpack_badAccess_write a), rf_badAccess d true a, rfl,
      only_badAccess d true a⟩
  · have hnoted : badBar0 d false a 4 = emit (badAccess d false false a) (.readAnswer false a (allOnes 4)) := by
      simp [badBar0, hmap]
    exact ⟨_, read (.inl hmap) hnoted rfl, (reg_badAccess d false a).trans (wpack_badAccess_read a), rf_badAccess d false a, rfl,
      only_badAccess d false a⟩
  · have hnoted : badBar0 d true a 4 = accessErr d a := by simp [badBar0, hmap]
    exact ⟨_, write (.inr hbad) hnoted rfl, rb_pokeBit_self d _ 7 true (by decide), rfl, only_pokeBit d _ 7 true⟩
  · have hnoted : badBar0 d false a 4 = emit (accessErr d a) (.readAnswer false a (allOnes 4)) := by simp [badBar0, hmap]
    exact ⟨_, read (.inr hbad) hnoted rfl, rb_pokeBit_self d _ 7 true (by decide), rfl, only_pokeBit d _ 7 true⟩

/-! ### Recovery (R628) -/

theorem exec_of_recovery {s : State} {x : HostAccess} {e : Dev} (hrec : s.dev.life = .recovery)
    (haccess : accessBoot s.dev s.mem s.boot x = (e, s.mem, s.boot)) (hlife : e.life = .recovery) :
    exec (.registerWrite x) s = .next (s.withDev e) := by
  have hone : hostAccess s.dev s.mem s.boot x = (e, s.mem, s.boot) := by
    rw [hostAccess, accessOnce, hrec]
    dsimp only
    rw [haccess]
    exact drainHeld_of_down (by rw [hlife]; decide)
  exact congrArg (fun r => Host.Outcome.next (s.put r)) hone

/-- Settles O48: an access of any other page falls to the branch of the closed pages. -/
theorem recoveryPagesAreSilent : Obligations.RecoveryPagesAreSilent := by
  intro s a v be hrec hboot hupd
  have hclosed : ¬ (a / 4096 = pgBoot ∨ a / 4096 = pgUpd) := not_or.mpr ⟨hboot, hupd⟩
  have hwrite : accessBoot s.dev s.mem s.boot (.bar0Write a v be) = (s.dev, s.mem, s.boot) := if_neg hclosed
  have hread : accessBoot s.dev s.mem s.boot (.bar0Read a) =
      (emit s.dev (.readAnswer false a [0, 0, 0, 0]), s.mem, s.boot) := by
    rw [accessBoot]
    dsimp only
    rw [if_neg hclosed, hrec]
    rfl
  exact ⟨exec_of_recovery hrec hwrite hrec, exec_of_recovery hrec hread hrec⟩

/-! ### The update window (R638, R666) -/

theorem barWindow_update {o : Nat} (hlo : 0x30000000 ≤ o) (hhi : o < 0x30010000) : barWindow o = some 18 := by
  rw [barWindow, if_neg (by omega), if_neg (by omega), if_neg (by omega), if_pos hhi]

/-- The windows of BAR2: the wales', the two memories', the update window. -/
theorem barWindow_cases {o k : Nat} (h : barWindow o = some k) :
    k < 16 ∨ k = 16 ∨ k = 17 ∨ k = 18 ∧ 0x30000000 ≤ o ∧ o < 0x30010000 := by
  unfold barWindow at h
  split at h
  · cases h
    omega
  · split at h
    · cases h
      exact .inr (.inl rfl)
    · split at h
      · cases h
        exact .inr (.inr (.inl rfl))
      · split at h
        · cases h
          omega
        · cases h

theorem barWindow_eq_update {o : Nat} (h : barWindow o = some 18) : 0x30000000 ≤ o ∧ o < 0x30010000 := by
  have := barWindow_cases h
  omega

theorem tblRefused_update (d : Dev) {o : Nat} (hlo : 0x30000000 ≤ o) (hhi : o < 0x30010000) : tblRefused d o = [] := by
  rw [tblRefused, barWindow_update hlo hhi]
  simp

theorem barPut_update (d : Dev) (m : Mem) {o : Nat} (x : Byte) (hlo : 0x30000000 ≤ o) (hhi : o < 0x30010000) :
    barPut d m o x = (d, { m with win := tput zeroByte m.win (o - 0x30000000) x }) := by
  rw [barPut, barWindow_update hlo hhi]
  simp [tblRefused_update d hlo hhi]

theorem barPuts_update (d : Dev) (m : Mem) {o : Nat} (bs : List Byte) (hlo : 0x30000000 ≤ o) (hhi : o + bs.length ≤ 0x30010000) :
    barPuts bs o (d, m) = (d, { m with win := mwrite zeroByte m.win (o - 0x30000000) bs }) := by
  induction bs generalizing o m with
  | nil => rfl
  | cons x xs ih =>
    rw [List.length_cons] at hhi
    rw [barPuts, barPut_update d m x hlo (by omega), ih _ (by omega) (by omega), show o + 1 - 0x30000000 = o - 0x30000000 + 1 by omega]
    rfl

theorem barWrite_update (d : Dev) (m : Mem) {o : Nat} (bs : List Byte) (hlo : 0x30000000 ≤ o) (hhi : o + bs.length ≤ 0x30010000) :
    barWrite d m o bs = (d, { m with win := mwrite zeroByte m.win (o - 0x30000000) bs }) := by
  have hnone : (List.range bs.length).flatMap (fun i => tblRefused d (o + i)) = [] := by
    rw [List.flatMap_eq_nil_iff]
    intro i hi
    rw [List.mem_range] at hi
    exact tblRefused_update d (by omega) (by omega)
  simp only [barWrite, hnone, barPuts_update d m bs hlo hhi]
  rfl

/-- A byte of BAR2 outside the update window does not come from the window's memory. -/
theorem barByte_withWin_of_ne (d : Dev) (m : Mem) (w : Tbl Byte) {o : Nat} (h : barWindow o ≠ some 18) :
    barByte d { m with win := w } o = barByte d m o := by
  unfold barByte
  split
  · rfl
  · rename_i k hk
    have hne : k ≠ 18 := fun he => h (he ▸ hk)
    obtain hk | rfl | rfl | ⟨hk, -⟩ := barWindow_cases hk
    · rw [if_pos hk, if_pos hk]
      rfl
    · rfl
    · rfl
    · exact absurd hk hne

theorem barByte_update (d : Dev) (m : Mem) {o : Nat} (hlo : 0x30000000 ≤ o) (hhi : o < 0x30010000) :
    barByte d m o = tget zeroByte m.win (o - 0x30000000) := by
  rw [barByte, barWindow_update hlo hhi]
  simp

/-- A byte of BAR2 that the write does not reach is as it was. -/
theorem barByte_mwrite_out (d : Dev) (m : Mem) {o x : Nat} (bs : List Byte) (hlo : 0x30000000 ≤ o) (hout : x < o ∨ o + bs.length ≤ x) :
    barByte d { m with win := mwrite zeroByte m.win (o - 0x30000000) bs } x = barByte d m x := by
  by_cases hwin : 0x30000000 ≤ x ∧ x < 0x30010000
  · obtain ⟨hxlo, hxhi⟩ := hwin
    rw [barByte_update d _ hxlo hxhi, barByte_update d m hxlo hxhi]
    exact tget_mwrite_out zeroByte bs m.win _ _ (by omega)
  · exact barByte_withWin_of_ne d m _ fun h => hwin (barWindow_eq_update h)

/-- Settles O49: the bytes land in the window's memory alone. -/
theorem updateWindowReadsBack : Obligations.UpdateWindowReadsBack := by
  intro s o bs hup hheld hlo hhi hne
  have hlen : 0 < bs.length := List.length_pos_iff.mpr hne
  have hwin : barWindow o = some 18 := barWindow_update hlo (by omega)
  have htable : isTable o = false := decide_eq_false (by omega)
  have hgo : waitsLpx s.dev (.bar2Write o bs) = false := by simp [waitsLpx, hwin]
  have hone : hostAccess s.dev s.mem s.boot (.bar2Write o bs) =
      (s.dev, { s.mem with win := mwrite zeroByte s.mem.win (o - 0x30000000) bs }, s.boot) := by
    rw [hostAccess_up s.mem s.boot hup hgo]
    simp only [accessUp, hwin, hostBar2, htable, Bool.false_and, Bool.false_eq_true, if_false, barWrite_update s.dev s.mem bs hlo hhi]
    exact drainHeld_of_none hheld
  refine ⟨_, congrArg (fun r => Host.Outcome.next (s.put r)) hone, fun i hi => ?_, fun x hx => barByte_mwrite_out s.dev s.mem bs hlo hx, rfl⟩
  rw [barByte_update s.dev _ (by omega) (by omega), show o + i - 0x30000000 = o - 0x30000000 + i by omega]
  refine (tget_mwrite_in zeroByte bs s.mem.win _ i hi).trans ?_
  rw [List.getD_eq_getElem?_getD, List.getElem?_eq_getElem hi, Option.getD_some]

end Sys2Proof.Machine
end

/-! # Resets of a tripped part, and the operations of a session that are refused or abort it -/

section
namespace Sys2Proof.Machine

/-! ### What a reset carries over (R596, R624) -/

/-- The two parts read alike at `a`, in the bits of `mask`. -/
def AgreeOn (mask : Word) (a : Nat) (d e : Dev) : Prop := reg e a &&& mask = reg d a &&& mask

theorem agreeOn_of_same {mask : Word} {a : Nat} {as : List Nat} {d e f : Dev} (h : AgreeOn mask a d e) (hs : SameRegs e f as)
    (ha : a ∉ as) : AgreeOn mask a d f := by
  rw [AgreeOn, hs a ha]
  exact h

theorem merge_and_self (v w m : Word) : ((w &&& ~~~ m) ||| (v &&& m)) &&& m = v &&& m := by
  ext i
  simp
  cases m[i] <;> simp

theorem merge_and_of_agree {v w m k : Word} (h : w &&& k = v &&& k) : ((w &&& ~~~ m) ||| (v &&& m)) &&& k = v &&& k := by
  ext i hi
  have hbit : (w &&& k)[i] = (v &&& k)[i] := by rw [h]
  simp only [BitVec.getElem_and, BitVec.getElem_or, BitVec.getElem_not] at hbit ⊢
  cases m[i] <;> simp_all

theorem agreeOn_carry_self (d x : Dev) (q : Nat × Word) : AgreeOn q.2 q.1 d (carry d x q) := by
  rw [AgreeOn, carry, reg_setReg_self, merge_and_self]

theorem agreeOn_carry {mask : Word} {a : Nat} {d x : Dev} (h : AgreeOn mask a d x) (q : Nat × Word) :
    AgreeOn mask a d (carry d x q) := by
  rw [AgreeOn, carry, reg_setReg]
  split
  · rename_i ha
    rw [← ha]
    exact merge_and_of_agree h
  · exact h

theorem agreeOn_foldl_carry_of_agree {mask : Word} {a : Nat} {d x : Dev} (l : List (Nat × Word)) (h : AgreeOn mask a d x) :
    AgreeOn mask a d (l.foldl (carry d) x) := by
  induction l generalizing x with
  | nil => exact h
  | cons q l ih => exact ih (agreeOn_carry h q)

/-- Each field that a reset lists is carried over. -/
theorem agreeOn_foldl_carry {mask : Word} {a : Nat} (d x : Dev) {l : List (Nat × Word)} (h : (a, mask) ∈ l) :
    AgreeOn mask a d (l.foldl (carry d) x) := by
  induction l generalizing x with
  | nil => simp at h
  | cons q l ih =>
    obtain rfl | h := List.mem_cons.mp h
    · exact agreeOn_foldl_carry_of_agree l (agreeOn_carry_self d x _)
    · exact ih (carry d x q) h

theorem agreeOn_resetDev {mask : Word} {a : Nat} (d : Dev) (b : Boot) (cause : Nat) (h : (a, mask) ∈ warmKeeps ++ slathKeeps)
    (ha : a ∉ [ra pgFab 0x108, ra pgFab 0x10C, ra pgBoot 0x104]) : AgreeOn mask a d (resetDev d b false cause) := by
  refine agreeOn_of_same (agreeOn_foldl_carry d { out := d.out, pair := { okIn := d.pair.okIn, actIn := d.pair.actIn } } h) ?_ ha
  exact same_trans (same_trans (same_mono (same_setReg _ _ _) (by simp)) (same_mono (same_setReg _ _ _) (by simp)))
    (same_mono (only_poke _ _ 2 0 cause).1 (by simp))

theorem rb_of_agreeOn {d e : Dev} {a i : Nat} {mask : Word} (h : AgreeOn mask a d e) (hi : mask.getLsbD i = true) :
    rb e a i = rb d a i := by
  have hbit : (reg e a &&& mask).getLsbD i = (reg d a &&& mask).getLsbD i := by rw [h]
  simpa [hi, rb, bitOf] using hbit

theorem rf_of_agreeOn {d e : Dev} {a : Nat} (h : AgreeOn 0xFFFF a d e) : rf e a 15 0 = rf d a 15 0 := by
  have hlow (w : Word) : fld w 15 0 = (w &&& 0xFFFF).toNat := by
    rw [BitVec.toNat_and]
    exact (Nat.and_two_pow_sub_one_eq_mod w.toNat 16).symm
  rw [rf, rf, hlow, hlow, h]

/-! ### A tripped part that is still hot (R596) -/

theorem thermStat_resetDev (d : Dev) (b : Boot) (cause : Nat) :
    rb (resetDev d b false cause) thermStatA 26 = rb d thermStatA 26 :=
  rb_of_agreeOn (mask := 0x4000000) (agreeOn_resetDev d b cause (by simp [warmKeeps]) (by decide)) (by decide)

theorem reading_resetDev (d : Dev) (b : Boot) (cause : Nat) {i : Nat} (hi : i < 24) :
    reading (resetDev d b false cause) (384 + i) = reading d (384 + i) := by
  have hkept : (sensorA (384 + i), 0xFFFF) ∈ warmKeeps ++ slathKeeps :=
    List.mem_append_right _ (List.mem_map.mpr ⟨i, List.mem_range.mpr hi, rfl⟩)
  have hplace : sensorA (384 + i) ∉ [ra pgFab 0x108, ra pgFab 0x10C, ra pgBoot 0x104] := by
    simp [sensorA, thermA, ra, pgTherm, pgFab, pgBoot]
    omega
  rw [reading, reading, rf_of_agreeOn (agreeOn_resetDev d b cause hkept hplace)]

theorem slathCool_resetDev (d : Dev) (b : Boot) (cause : Nat) : slathCool (resetDev d b false cause) = slathCool d := by
  rw [slathCool, slathCool, Bool.eq_iff_iff, List.all_eq_true, List.all_eq_true]
  refine forall₂_congr fun i hi => ?_
  rw [reading_resetDev d b cause (List.mem_range.mp hi)]

/-- Upsett of a part that has its clock and its rails ends at the heat. -/
theorem upsett_hot {d : Dev} (m : Mem) {b : Boot} (hrun : b.testEn = false ∧ b.railsLost = [] ∧ b.refOk = true)
    (hhot : slathCool d = false) : upsett d m b = ({ d with life := .held 2 }, m, b) := by
  obtain ⟨htest, hrails, href⟩ := hrun
  simp [upsett, htest, hrails, href, hhot]

theorem warmReset_of_tripped {d : Dev} (m : Mem) (b : Boot) (cause : Nat) (h : d.life = .held 2) :
    warmReset d m b cause = resetPart d m b false cause := by
  simp [warmReset, h]

/-- What outlives a reset, that reset counted. -/
def resetBoot (b : Boot) : Boot := { b with resets := b.resets + 1, dogAt := none }

theorem resetPart_of_down {d : Dev} (m : Mem) (b : Boot) (power : Bool) (cause : Nat) (h : d.life ≠ .up) :
    resetPart d m b power cause = upsett (resetDev d (resetBoot b) power cause) (resetMem m) (resetBoot b) := by
  simp [resetPart, resetBoot, h]

theorem rb_withLife (d : Dev) (l : Life) (a i : Nat) : rb { d with life := l } a i = rb d a i := rfl

/-- Settles O56: the check waits for the sensors, and Upsett after a warm reset reads them as they were. -/
theorem tripHoldsWhileHot : Obligations.TripHoldsWhileHot := by
  intro s hheld hhot htest hrails href
  have hcheck : tripRelease s.dev s.mem s.boot = (s.dev, s.mem, s.boot) := if_neg (by simp [hhot])
  have hreset := warmReset_of_tripped s.mem s.boot 1 hheld
  rw [resetPart_of_down s.mem s.boot false 1 (by rw [hheld]; decide), upsett_hot (b := resetBoot s.boot) _ ⟨htest, hrails, href⟩
    ((slathCool_resetDev s.dev _ 1).trans hhot)] at hreset
  refine ⟨congrArg (fun r => Host.Outcome.next (s.put r)) hcheck, _, congrArg (fun r => Host.Outcome.next (s.put r)) hreset, rfl, ?_⟩
  exact (rb_withLife _ _ _ _).trans (thermStat_resetDev s.dev _ 1)

/-! ### Update operations (R636, R639) -/

/-- An operation that comes by a message is answered by one (R637). -/
theorem answer_of_message {d : Dev} {r : UpdRequest} (hsrc : r.source = 2 ∨ r.source = 3) (op token : Nat) (st : UpdStatus) :
    answer d r op token st = emit d (.updReply r.source.val
      (updHeader op st.code token r.payload.length r.offset r.crc.toNat)) := by
  have hval : ¬ r.source.val = 1 ∧ ¬ r.source.val = 4 := by
    obtain h | h := hsrc
    · rw [h]
      decide
    · rw [h]
      decide
  obtain ⟨hpcie, hlink⟩ := hval
  exact (if_neg hpcie).trans (if_neg hlink)

theorem refuseBusy_of_message {d : Dev} {r : UpdRequest} (hsrc : r.source = 2 ∨ r.source = 3) (op : Nat) :
    refuseBusy d r op = emit (count d (ra pgUpd 0x11C)) (.updReply r.source.val
      (updHeader op UpdStatus.busy.code r.token.toNat r.payload.length r.offset r.crc.toNat)) :=
  answer_of_message hsrc op r.token.toNat .busy

theorem source_ne_pcie {r : UpdRequest} (hsrc : r.source = 2 ∨ r.source = 3) : ¬ r.source = 1 := by
  obtain h | h := hsrc <;> simp [h]

theorem openSess_foreign {d : Dev} (m : Mem) (b : Boot) {r : UpdRequest} (hserved : served d r.source.val = true)
    (hsess : d.upd.sess.isSome = true) : openSess d m b r = (refuseBusy d r opOpen, m, b) := by
  simp [openSess, hserved, hsess]

section
variable {d : Dev} (m : Mem) (b : Boot) {r : UpdRequest} (hserved : served d r.source.val = true) (hforeign : owns d r = false)
include hserved hforeign

theorem writeSess_foreign : writeSess d m b r = (refuseBusy d r opWrite, m) := by
  simp [writeSess, hserved, hforeign]

theorem closeSess_foreign : closeSess d m b r = (refuseBusy d r opClose, m, b) := by
  simp [closeSess, hserved, hforeign]

omit m b in
theorem abortSess_foreign : abortSess d r = refuseBusy d r opAbort := by
  simp [abortSess, hserved, hforeign]

omit m b in
theorem statusSess_foreign (hsess : d.upd.sess.isSome = true) : statusSess d r = refuseBusy d r opStatus := by
  simp [statusSess, hserved, hforeign, hsess]

theorem activateImage_foreign (hup : d.life = .up) (hsess : d.upd.sess.isSome = true) (force : Bool) :
    activateImage d m b r force = (refuseBusy d r opActivate, m, b) := by
  simp [activateImage, hserved, hforeign, hup, hsess]

end

theorem anyState_of_eq {s : State} {f : Dev → Mem → Boot → Dev × Mem × Boot} {e : Dev}
    (h : f s.dev s.mem s.boot = (e, s.mem, s.boot)) : anyState s f = .next (s.withDev e) := by
  rw [anyState, h]

theorem anyMem_of_eq {s : State} {f : Dev → Mem → Dev × Mem} {e : Dev} (h : f s.dev s.mem = (e, s.mem)) :
    anyMem s f = .next (s.withDev e) := by
  rw [anyMem, h]

theorem anyDev_of_eq {s : State} {f : Dev → Dev} {e : Dev} (h : f s.dev = e) : anyDev s f = .next (s.withDev e) := by
  rw [anyDev, h]

section
variable {r : UpdRequest} (hmessage : ¬ r.source = 1) (s : State)
include hmessage

theorem exec_updOpen_message : exec (.updOpen r) s = anyState s (fun d m b => openSess d m b r) := if_neg hmessage

theorem exec_updWrite_message : exec (.updWrite r) s = anyMem s (fun d m => writeSess d m s.boot r) := by
  have hexec : exec (.updWrite r) s = anyMem s (fun d m => if r.source = 1 then (d, m) else writeSess d m s.boot r) := rfl
  simpa only [if_neg hmessage] using hexec

theorem exec_close_message : exec (.close r) s = anyState s (fun d m b => closeSess d m b r) := if_neg hmessage

theorem exec_abort_message : exec (.abort r) s = anyDev s (fun d => abortSess d r) := if_neg hmessage

theorem exec_status_message : exec (.status r) s = anyDev s (fun d => statusSess d r) := by
  have hexec : exec (.status r) s = anyDev s (fun d => if r.source = 1 then d else statusSess d r) := rfl
  simpa only [if_neg hmessage] using hexec

theorem exec_activate_message (force : Bool) :
    exec (.activate r force) s = anyState s (fun d m b => activateImage d m b r force) := if_neg hmessage

end

/-- Settles O57: whichever operation it is, it ends in the answer BUSY. -/
theorem foreignUpdateRefused : Obligations.ForeignUpdateRefused := by
  intro s r force i hup hsrc hserved hsess hi
  have hmessage := source_ne_pcie hsrc
  have hbusy : ∃ op, exec i s = .next (s.withDev (refuseBusy s.dev r op)) := by
    obtain rfl | ⟨hforeign, hi⟩ := hi
    · rw [exec_updOpen_message hmessage]
      exact ⟨opOpen, anyState_of_eq (openSess_foreign s.mem s.boot hserved hsess)⟩
    · simp only [List.mem_cons, List.not_mem_nil, or_false] at hi
      obtain rfl | rfl | rfl | rfl | rfl := hi
      · rw [exec_updWrite_message hmessage]
        exact ⟨opWrite, anyMem_of_eq (writeSess_foreign s.mem s.boot hserved hforeign)⟩
      · rw [exec_close_message hmessage]
        exact ⟨opClose, anyState_of_eq (closeSess_foreign s.mem s.boot hserved hforeign)⟩
      · rw [exec_abort_message hmessage]
        exact ⟨opAbort, anyDev_of_eq (abortSess_foreign hserved hforeign)⟩
      · rw [exec_status_message hmessage]
        exact ⟨opStatus, anyDev_of_eq (statusSess_foreign hserved hforeign hsess)⟩
      · rw [exec_activate_message hmessage]
        exact ⟨opActivate, anyState_of_eq (activateImage_foreign s.mem s.boot hserved hforeign hup hsess force)⟩
  obtain ⟨op, hexec⟩ := hbusy
  refine ⟨_, op, hexec, ?_⟩
  rw [refuseBusy_of_message hsrc]
  refine ⟨rfl, ?_, rfl, only_trans (only_count _ _) (only_emit _ _)⟩
  rw [rf_of_same (only_emit _ _).1 (by simp), count, rf_countBy_self _ _ 31 0 1 (by decide)]

/-! ### What software sources leave of a session (R570, R656) -/

theorem foldl_keeps {α β : Type} {proj : Dev → β} {f : Dev → α → Dev} (h : ∀ d x, proj (f d x) = proj d) (l : List α) (d : Dev) :
    proj (l.foldl f d) = proj d := by
  induction l generalizing d with
  | nil => rfl
  | cons x l ih => exact (ih (f d x)).trans (h d x)

theorem upd_ite {c : Prop} [Decidable c] {e f : Dev} {u : UpdSt} (he : e.upd = u) (hf : f.upd = u) : (if c then e else f).upd = u := by
  split
  · exact he
  · exact hf

theorem upd_senseSrc (d : Dev) (k : Nat) (now : Bool) : (senseSrc d k now).upd = d.upd := by
  have hpin : (pokeBit d (srcA k) 28 now).upd = d.upd := rfl
  have harr : (arrival (pokeBit d (srcA k) 28 now) k).upd = d.upd := rfl
  unfold senseSrc
  dsimp only
  split
  · have hmid := upd_ite (c := (now && !rb d (srcA k) 28) = true) harr hpin
    split
    · exact upd_ite hmid hmid
    · exact upd_ite hmid hmid
    · exact upd_ite hmid hmid
    · exact upd_ite hmid hmid
    · exact hmid
  · refine upd_ite ?_ hpin
    split
    · exact harr
    · exact harr
    · exact harr

theorem upd_enterCore (n : Nat) (d : Dev) (tt : Nat) : (enterCore n d tt).upd = d.upd := by
  induction n generalizing d with
  | zero => rfl
  | succ n ih =>
    unfold enterCore
    split
    · rfl
    · dsimp only
      split
      · rfl
      · exact ih _

theorem upd_tellHost (d : Dev) (k : Nat) : (tellHost d k).upd = d.upd := by
  unfold tellHost
  split <;> rfl

theorem upd_intcDeliver (d : Dev) : (intcDeliver d).upd = d.upd := by
  unfold intcDeliver
  dsimp only
  rw [foldl_keeps (proj := Dev.upd) upd_tellHost, foldl_keeps (proj := Dev.upd) (fun e tt => upd_enterCore 15 e tt)]

theorem upd_swiWrite (d : Dev) (v : Word) : (swiWrite d v).upd = d.upd := by
  unfold swiWrite
  dsimp only
  rw [upd_intcDeliver, foldl_keeps (proj := Dev.upd) (fun e j => upd_senseSrc e (160 + j) _)]
  rfl

theorem upd_setStatus (d : Dev) (st : UpdStatus) : (setStatus d st).upd = d.upd := by
  unfold setStatus
  split
  · rfl
  · exact upd_swiWrite _ _

theorem ownAnswer_of_message {d : Dev} {r : UpdRequest} (hsrc : r.source = 2 ∨ r.source = 3) (op token : Nat) (st : UpdStatus) :
    ownAnswer d r op token st = emit (setStatus d st) (.updReply r.source.val
      (updHeader op st.code token r.payload.length r.offset r.crc.toNat)) :=
  (if_neg (fun h => source_ne_pcie hsrc (Fin.ext h))).trans (answer_of_message hsrc op token st)

/-- Settles O58: the session is ended before the answer, which leaves it so. -/
theorem ownerAbortsSession : Obligations.OwnerAbortsSession := by
  intro s r hup hsrc hserved howns
  have habort : abortSess s.dev r = ownAnswer (endSess s.dev) r opAbort r.token.toNat .ok := by
    simp [abortSess, hserved, howns]
  refine ⟨_, (exec_abort_message (source_ne_pcie hsrc) s).trans (anyDev_of_eq habort), ?_⟩
  have hupd : (ownAnswer (endSess s.dev) r opAbort r.token.toNat .ok).upd = (endSess s.dev).upd := by
    rw [ownAnswer_of_message hsrc]
    exact upd_setStatus _ _
  rw [hupd]
  rfl

end Sys2Proof.Machine
end

/-! # The queue, and the state after reset -/

section
namespace Sys2Proof.Machine

/-- Settles O18. -/
theorem stepTakesFront : Obligations.StepTakesFront := fun _ _ => rfl

/-- Settles O19: an idle edge replaces the part alone. -/
theorem idleStepPassesOneEdge : Obligations.IdleStepPassesOneEdge := by
  intro s hempty
  have hstep : step s = .next (idleEdge s) := by
    rw [step, hempty]
  exact ⟨hstep, hempty, rfl, rfl, rfl⟩

/-- Settles O22. -/
theorem resetKeepsInvariant : Obligations.ResetKeepsInvariant := ⟨wf_reset, by decide, by decide, by decide⟩

/-- A part that holds no register of its own reads the reset values. -/
theorem reg_of_empty {d : Dev} (h : d.regs = []) (a : Nat) : reg d a = regReset a := by
  rw [reg, h]
  rfl

theorem srcState_reset (k : Fin 192) : srcState State.reset.dev k = 0 := by
  decide +kernel +revert

/-- Settles O24: with no register held, each reads as its row says. -/
theorem resetLeaves : Obligations.ResetLeaves := by
  have hreg : ∀ a, reg State.reset.dev a = regReset a := reg_of_empty rfl
  have hgroups : rf State.reset.dev (wkrA 0x104) 15 0 = 0xFFFF := by decide +kernel
  have hslots : curValid State.reset.dev = false ∧ preValid State.reset.dev = false := by decide +kernel
  exact ⟨rfl, rfl, by decide +kernel, hreg, hgroups, srcState_reset, hslots.1, hslots.2, rfl, rfl, rfl, rfl⟩

end Sys2Proof.Machine
end

/-! # What a command answers, by the path that it takes -/

section
namespace Sys2Proof.Machine

section
variable {i : Instr} {s : State} {e : Dev} {r : Dev × Mem × Boot}

theorem exec_of_runMem (f : Dev → Mem → Dev × Mem) (hi : exec i s = runMem s f) (hup : s.dev.life = .up) {q : Dev × Mem}
    (hq : f s.dev s.mem = q) : exec i s = .next (s.put (q.1, q.2, s.boot)) := by
  rw [hi, runMem_up s f hup, hq]

theorem exec_of_sendDev (f : Dev → Dev) (hi : exec i s = sendDev s f) (hup : s.dev.life = .up) (he : f s.dev = e) :
    exec i s = .next (s.withDev e) := by
  rw [hi, sendDev_up s f hup, he]

theorem exec_of_sendMem (f : Dev → Mem → Dev × Mem) (hi : exec i s = sendMem s f) (hup : s.dev.life = .up) {q : Dev × Mem}
    (hq : f s.dev s.mem = q) : exec i s = .next (s.put (q.1, q.2, s.boot)) := by
  rw [hi, sendMem_up s f hup, hq]

theorem exec_of_anyState (f : Dev → Mem → Boot → Dev × Mem × Boot) (hi : exec i s = anyState s f)
    (hr : f s.dev s.mem s.boot = r) : exec i s = .next (s.put r) := by
  rw [hi, anyState, hr]

theorem exec_of_upState (f : Dev → Mem → Boot → Dev × Mem × Boot) (hi : exec i s = upState s f) (hup : s.dev.life = .up)
    (hr : f s.dev s.mem s.boot = r) : exec i s = .next (s.put r) :=
  exec_of_anyState _ hi ((if_pos hup).trans hr)

/-- A part that has not stopped lets its lines move (R65, R595). -/
theorem exec_of_runLines (f : Dev → Dev) (hi : exec i s = runLines s f) (hup : s.dev.life = .up) (hgo : s.dev.stopped = false)
    (he : f s.dev = e) : exec i s = .next (s.withDev e) :=
  exec_of_runDev _ hi hup ((if_neg (by simp [hgo])).trans he)

end

end Sys2Proof.Machine
end

/-! # Encoder commands complete (R93 to R130) -/

section
namespace Sys2Proof.Machine

section
variable {d : Dev} (m : Mem) (b : Boot)

theorem dueInstant_of_due {u t : Nat} (h : (cmpu d u).due = some t) (hdue : (cmpu (elapse d m b t) u).due = some t)
    (hon : cmpOn (elapse d m b t).force u = true) :
    dueInstant d m b u = settle m b (eachUnit fireUnit (dueOn (elapse d m b t) t) (elapse d m b t)) := by
  rw [dueInstant, h]
  exact if_pos ⟨hdue, hon⟩

theorem latePulse_of_waiting {u : Nat} (h : (cmpu d u).lateWait = true)
    (hwait : (cmpu (elapse d m b (((cmpu d u).tFire.getD 0) + ff d (cmpA u 0) 15 0)) u).lateWait = true)
    (hfree : tooSoon (elapse d m b (((cmpu d u).tFire.getD 0) + ff d (cmpA u 0) 15 0)) u = false) :
    latePulse d m b u = settle m b (fireLate (elapse d m b (((cmpu d u).tFire.getD 0) + ff d (cmpA u 0) 15 0)) u) := by
  simp [latePulse, h, hwait, hfree]

theorem timerTrigger_of_timer {nn : Nat} (h : ff d (trgA nn 0) 28 27 = 1)
    (hthen : ff (elapse d m b (tat d.trg nn).timerAt) (trgA nn 0) 28 27 = 1) :
    timerTrigger d m b nn = outsideTrigger { elapse d m b (tat d.trg nn).timerAt with
      trg := tmod (elapse d m b (tat d.trg nn).timerAt).trg nn
        (fun x => { x with timerAt := x.timerAt + (inForce (elapse d m b (tat d.trg nn).timerAt) (trgA nn 4)).toNat }) } m b nn := by
  simp only [timerTrigger, if_pos h, if_pos hthen]

theorem wickerTrigger_of_wicker {nn : Nat} (h : trigByWicker (elapse d m b (d.cycle + 2)) nn = true) :
    wickerTrigger d m b nn = outsideTrigger (setBusy (elapse d m b (d.cycle + 2)) (1 + nn)
      ((elapse d m b (d.cycle + 2)).cycle + Nat.max 667 (ff (elapse d m b (d.cycle + 2)) (trgA nn 0) 15 0))) m b nn := if_pos h

theorem applyCorr_of_pending {c t : Nat} {k : Int} (h : (ench d c).corr = some k) (hdue : (ench d c).corrDue = some t) :
    applyCorr d m b c = encJump (encEvt (idxCount (setEnc d c { (ench d c) with corr := none, corrDue := none }) c 15 8) c 2) m b c
      ((ench d c).count + k) 2 (-k) := by
  simp only [applyCorr, h, hdue]

theorem speedInstant_of_period {c : Nat} (hout : fb d (encA c 0x150) 31 = true) (hon : encOn d c = true)
    (hperiod : fb d (encA c 0x150) 29 = false) :
    speedInstant d m b c = speedOut (elapse d m b ((ench d c).outAt + (inForce d (encA c 0x154)).toNat)) c := by
  simp [speedInstant, hout, hon, hperiod]

end

theorem setLos_of_signal {d : Dev} {c : Nat} (h : (ench d c).los = false) :
    setLos d c = raise (encEvt (setEnc d c { (ench d c) with los := true }) c 9) (pgEnc c) 0x20 2 4 c := if_neg (by simp [h])

theorem setStale_of_fresh {d : Dev} {c : Nat} (h : (ench d c).stale = false) :
    setStale d c = raise (encEvt (setEnc d c { (ench d c) with stale := true, spread := {} }) c 11) (pgEnc c) 0x21 2 4 c :=
  if_neg (by simp [h])

/-- Settles O1: each clause's hypotheses choose the branch of its command. -/
theorem encoderCommandsComplete : Obligations.EncoderCommandsComplete := by
  intro s hup d m b
  refine ⟨fun c x y n => ?_, fun u t ht hdue hon => ?_, fun u hwait hwait' hfree => ?_, fun nn hmode hmode' => ?_,
    fun nn slot hedge hmode => ?_, fun c hlos => ?_, fun c f hcount => ?_, fun c hcount hrun hfresh => ?_, fun c hon hgate => ?_,
    fun c k t hk ht => ?_, fun c hout hon hperiod => ?_, fun slot hedge hen => ?_, fun c x y hlos => ?_⟩
  · exact exec_of_runDev (fun d => encBatch d m b c x y n) rfl hup rfl
  · exact exec_of_runDev (fun d => dueInstant d m b u) rfl hup (dueInstant_of_due m b ht hdue hon)
  · exact exec_of_runDev (fun d => latePulse d m b u) rfl hup (latePulse_of_waiting m b hwait hwait' hfree)
  · exact exec_of_runDev (fun d => timerTrigger d m b nn) rfl hup (timerTrigger_of_timer m b hmode hmode')
  · refine exec_of_runDev (fun d => if (slotEdge d slot (1 + nn) (targetBusy d (1 + nn))).2 then
      wickerTrigger (slotEdge d slot (1 + nn) (targetBusy d (1 + nn))).1 m b nn
      else (slotEdge d slot (1 + nn) (targetBusy d (1 + nn))).1) rfl hup ?_
    exact (if_pos hedge).trans (wickerTrigger_of_wicker m b hmode)
  · exact exec_of_runDev (fun d => setLos d c) rfl hup (setLos_of_signal hlos)
  · exact exec_of_runDev (fun d => ssiFrame d m b (4 + c) f) rfl hup rfl
  · refine exec_of_runDev (fun d => if counting d (4 + c) && decide (ff d (encA (4 + c) 0x140) 4 0 ≤ (ench d (4 + c)).failRun)
      then setStale d (4 + c) else d) rfl hup ?_
    exact (if_pos (by simp [d, hcount, hrun])).trans (setStale_of_fresh hfresh)
  · exact exec_of_runDev (fun d => if encOn d c && idxGate d c then takeIndex d c (ench d c).count else d) rfl hup
      (if_pos (by simp [d, hon, hgate]))
  · exact exec_of_runDev (fun d => applyCorr d m b c) rfl hup (applyCorr_of_pending m b hk ht)
  · exact exec_of_runDev (fun d => speedInstant d m b c) rfl hup (speedInstant_of_period m b hout hon hperiod)
  · exact exec_of_runDev (fun d => if (slotEdge d slot 0x020 (targetBusy d 0x020)).2 && rb d (encA 0 0x180) 0
      then alignAll (elapse (slotEdge d slot 0x020 (targetBusy d 0x020)).1 m b (d.cycle + 2))
      else (slotEdge d slot 0x020 (targetBusy d 0x020)).1) rfl hup (if_pos (by simp [d, hedge, hen]))
  · exact exec_of_runDev (fun d => recovers d c x y) rfl hup (if_pos hlos)

end Sys2Proof.Machine
end

/-! # Camera commands complete (R131 to R170, R447, R448) -/

section
namespace Sys2Proof.Machine

section
variable {d : Dev} (m : Mem) (b : Boot) {n : Nat}

theorem lineStart_free (h : Header) (hup : (skp d n).linkUp = true) (hfree : (skp d n).hdr = none) :
    lineStart d m b n h = headerFree d m b n d.cycle h := by
  simp [lineStart, hup, hfree]

theorem videoPacket_free (p : Packet) (hup : (skp d n).linkUp = true) (hfree : (skp d n).hdr = none) :
    videoPacket d m n p = packetAt d m n d.cycle p := by
  simp [videoPacket, hup, hfree]

theorem lineEnd_free (hup : (skp d n).linkUp = true) (hfree : (skp d n).hdr = none) : lineEnd d m n = endLine d m n := by
  simp [lineEnd, hup, hfree]

theorem lineMissing_of_waiting {t : Nat} (h : earliest ((waitingSlots (skp d n)).map (fun z => z.winHi)) = some t) :
    lineMissing d m b n = closeMissed (elapse d m b t) m n := by
  rw [lineMissing, h]

/-- A port's slots once the deadline `t` of started lines has passed, and what it goes on with (R145). -/
def timedOut (p : SkeinPort) (t : Nat) : SkeinPort :=
  let late := fun (z : Slot) => runsOut z && decide (z.deadline ≤ t)
  let hit := p.slots.any (fun z => late z && decide (p.cur = some z.stamp.camLine))
  { p with slots := p.slots.map (fun z => if late z then { z with ended := true, timedOut := true } else z)
           cur := if hit then none else p.cur, discard := p.discard || hit }

theorem lineTimeout_of_deadline {t : Nat} (h : earliest (((skp d n).slots.filter runsOut).map (fun z => z.deadline)) = some t) :
    lineTimeout d m b n = settleSlots (setSkp (elapse d m b t) n (timedOut (skp (elapse d m b t) n) t)) m n := by
  rw [lineTimeout, h]
  rfl

theorem resendExpiry_lines {t : Nat} (h : earliest (((skp d n).slots.filter pendingLine).map (lineExpiry d n)) = some t)
    (hfree : (skp d n).hdr = none) : resendExpiry d m b n = settleSlots (closeSlots (elapse d m b t) n 0x05
      ((((skp d n).slots.filter pendingLine).filter (fun z => decide (lineExpiry d n z ≤ t))).map (fun z => z.stamp.camLine))) m n := by
  simp [resendExpiry, hfree, h]

theorem cameraStall_of_silence {t : Nat} (hlast : (skp d n).lastStart = some t)
    (hruns : freeRuns d n = true ∧ portOn d.force n = true ∧ (skp d n).stalled = false)
    (hthen : freeRuns (elapse d m b (t + wdTime d.force n)) n = true ∧ portOn (elapse d m b (t + wdTime d.force n)).force n = true ∧
      (skp (elapse d m b (t + wdTime d.force n)) n).stalled = false)
    (hstill : (skp (elapse d m b (t + wdTime d.force n)) n).lastStart = some t) :
    cameraStall d m b n = skEvt (setSkp (elapse d m b (t + wdTime d.force n)) n
      { (skp (elapse d m b (t + wdTime d.force n)) n) with stalled := true }) n 10 := by
  obtain ⟨hruns, hon, hgoes⟩ := hruns
  obtain ⟨hruns', hon', hgoes'⟩ := hthen
  simp [cameraStall, hlast, hruns, hon, hgoes, hruns', hon', hgoes', hstill]

end

/-- The levels of a port's GPIO outputs with output `k` at `level`. -/
def gpOutWith (d : Dev) (n k : Nat) (level : Bool) : Nat :=
  if level then (skp d n).gpOut + 2 ^ k else (skp d n).gpOut - 2 ^ k

theorem camGpout_of_change {d : Dev} {n k : Nat} {level : Bool} (carried : Bool) (hchange : (skp d n).gpOut.testBit k ≠ level)
    (htx : txOn (setSkp d n { (skp d n) with gpOut := gpOutWith d n k level }) n = true) :
    camGpout d n k level carried = if carried then
      poke (emit (setSkp d n { (skp d n) with gpOut := gpOutWith d n k level }) (.gpioMsg n (gpOutWith d n k level)))
        (ra (pgSkein n) 0x120) 7 4 (gpOutWith d n k level)
      else skCount (setSkp d n { (skp d n) with gpOut := gpOutWith d n k level }) n 12 :=
  (if_neg hchange).trans (if_neg (by simpa [gpOutWith] using htx))

theorem scanStart_of_free {d : Dev} {l : LaneId} (hfree : (laneTbl d l).2.contains (laneAt l).2 = false)
    (hcool : throttleStep d = 0) :
    scanStart d l = scanBusy (setLaneTbl d l (laneTbl d l).1 ((laneTbl d l).2 ++ [(laneAt l).2])) (laneAt l).1 (laneAt l).2 true :=
  if_neg (by rw [hfree, hcool]; simp)

/-- Settles O2: each clause's hypotheses choose the branch of its command. -/
theorem cameraCommandsComplete : Obligations.CameraCommandsComplete := by
  intro s hup d m b
  refine ⟨fun n k skew hlock => ?_, fun n k hlock => ?_, fun n k => ?_, fun n h hgo hlink hfree => ?_, fun n p hlink hfree => ?_,
    fun n hlink hfree => ?_, fun n t ht => ?_, fun n t ht => ?_, fun n t ht hfree => ?_,
    fun n t hlast hruns hon hgoes hruns' hon' hgoes' hstill => ?_, fun n levels => ?_, fun n w => ?_,
    fun n k level hchange htx => ⟨?_, ?_⟩, fun l hfree hcool => ?_, fun l r hhead => ?_, fun l loop v => ?_⟩
  · exact exec_of_runDev (fun d => laneLock d n k skew) rfl hup (if_neg (by simp [d, hlock]))
  · exact exec_of_runDev (fun d => laneLoss d m n k) rfl hup (if_pos hlock)
  · exact exec_of_runDev (fun d => laneSlip d m n k) rfl hup rfl
  · exact exec_of_runDev (fun d => if d.stopped then d else lineStart d m b n h) rfl hup
      ((if_neg (by simp [d, hgo])).trans (lineStart_free m b h hlink hfree))
  · exact exec_of_runDev (fun d => videoPacket d m n p) rfl hup (videoPacket_free m p hlink hfree)
  · exact exec_of_runDev (fun d => lineEnd d m n) rfl hup (lineEnd_free m hlink hfree)
  · exact exec_of_runDev (fun d => lineMissing d m b n) rfl hup (lineMissing_of_waiting m b ht)
  · exact exec_of_runDev (fun d => lineTimeout d m b n) rfl hup (lineTimeout_of_deadline m b ht)
  · exact exec_of_runDev (fun d => resendExpiry d m b n) rfl hup (resendExpiry_lines m b ht hfree)
  · exact exec_of_runDev (fun d => cameraStall d m b n) rfl hup
      (cameraStall_of_silence m b hlast ⟨hruns, hon, hgoes⟩ ⟨hruns', hon', hgoes'⟩ hstill)
  · exact exec_of_runDev (fun d => gpioIn d n levels.toNat) rfl hup rfl
  · exact exec_of_runDev (fun d => camStatus d n w) rfl hup rfl
  · exact exec_of_runDev (fun d => camGpout d n k level true) rfl hup (camGpout_of_change true hchange htx)
  · exact exec_of_runDev (fun d => camGpout d n k level false) rfl hup (camGpout_of_change false hchange htx)
  · exact exec_of_runDev (fun d => scanStart d l) rfl hup (scanStart_of_free hfree hcool)
  · exact exec_of_runDev (fun d => scanDone d l r) rfl hup (if_pos hhead)
  · exact exec_of_runDev (fun d => eqUpdate d l loop v) rfl hup rfl

end Sys2Proof.Machine
end

/-! # Wale commands complete (R171 to R273) -/

section
namespace Sys2Proof.Machine

section
variable {d : Dev} (m : Mem) (b : Boot) {w x : Nat}

theorem waleTake_of_ready {y n : Nat} {l : CamLine} {ls : List CamLine} (hport : portOfCtx d.force w (takeCtx d w y) = some n)
    (hready : (skp d n).ready = l :: ls)
    (hgo : stopCause (settleSlots (setSkp d n { (skp d n) with ready := ls }) m n) w = none) :
    waleTake d m w y = finishCtx (enterLine (settleSlots (setSkp d n { (skp d n) with ready := ls }) m n) m w (takeCtx d w y) n l)
      w (takeCtx d w y) := by
  simp only [waleTake, hport, hready]
  exact if_neg (by simp [hgo])

/-- The context of `e` after line `i` of its alignment store, `l`, has gone out under the recipe `f` (R193, R194). -/
def lineOut (f : Tbl Word) (e : Dev) (w x n i : Nat) (l : ALine) : Dev :=
  let z := { (wst e w x) with lines := (wst e w x).lines.set i { l with out := true } }
  finishCtx (setWst e w x (trimLines f w x (vf f (ra (pgSkein n) 0x108) 16 0) z)) w x

theorem alignedLine_of_next {i n : Nat} {l : ALine} (hl : (wst d w x).lines.getD i default = l) (hnext : nextAligned d w x = some i)
    (hport : portOfCtx (forceOf d l.stamp.ver) w x = some n) : alignedLine d m w x =
    lineOut (forceOf d l.stamp.ver) (if l.gap then emitGap d w x n l else emitLine d m w x n i l) w x n i l := by
  simp only [alignedLine, hnext, hl, hport]
  rfl

theorem stitchTimeout_of_first {ss : Nat} {e : Nat × Nat} (h : firstTimeout d ss = some e) :
    stitchTimeout d m b ss = releaseUpTo ss e.1 (d.refLines.length + 1) (elapse d m b e.2) := by
  rw [stitchTimeout, h]

theorem releaseNext_of_ready {ss : Nat} {e : Nat × Option Stamp} (h : nextRelease d ss = some e) (hready : releaseReady d ss e = true) :
    releaseNext d ss = releaseLine d ss e.1 e.2 := by
  rw [releaseNext, h]
  exact if_pos hready

end

/-- Settles O3: each clause's hypotheses choose the branch of its command. -/
theorem waleCommandsComplete : Obligations.WaleCommandsComplete := by
  intro s hup d m b
  refine ⟨fun w y n l ls hgo hport hready hfree => ?_, fun w y i n hgo hnext hport => ?_, fun w x a p hdone => ?_,
    fun w x z hgo hnext => ?_, fun w x z hgo hlast hring hhold hwin => ?_, fun ss e hgo hnext hready => ?_,
    fun ss e hgo hfirst => ?_, fun w x l ls hgo hpend hready => ?_, fun w x n hgo hlast hend hblock => ?_⟩
  · exact exec_of_runLines (fun d => waleTake d m w y.toNat) rfl hup hgo (waleTake_of_ready m hport hready hfree)
  · exact exec_of_runLines (fun d => alignedLine d m w y.toNat) rfl hup hgo (alignedLine_of_next m rfl hnext hport)
  · exact exec_of_runMem (fun d m => statReady d m w x.toNat) rfl hup rfl
  · exact exec_of_runLines (fun d => formContrib d w x.toNat) rfl hup hgo rfl
  · exact exec_of_runLines (fun d => readBack d m w x.toNat) rfl hup hgo rfl
  · exact exec_of_runLines (fun d => releaseNext d ss) rfl hup hgo (releaseNext_of_ready hnext hready)
  · exact exec_of_runLines (fun d => stitchTimeout d m b ss) rfl hup hgo (stitchTimeout_of_first m b hfirst)
  · exact exec_of_runLines (fun d => formRuns d w x.toNat) rfl hup hgo rfl
  · exact exec_of_runLines (fun d => thresholdUpdate d w x.toNat) rfl hup hgo rfl

end Sys2Proof.Machine
end

/-! # Tracker commands complete (R274 to R323) -/

section
namespace Sys2Proof.Machine

theorem seamFlushArrive_of_side {d : Dev} (m : Mem) {src : Nat} {ws : List Dword} {right : Bool}
    (h : seamSide d src ws = some right) : seamFlushArrive m d src ws = breakSide m d right := by
  rw [seamFlushArrive, h]

/-- The entries of a station's frontier that a scrub drops (R282). -/
theorem scrub_of_last {d : Dev} {ss n : Nat} (h : (trkStn d ss).last = some n) : scrub d ss = dropEntries d (trkStn d ss)
    (fun _ e => decide (e.handle ≠ noHandle ∨ e.refused) && decide (entAge n e > 2 ^ 30)) := by
  rw [scrub, h]

/-- Settles O4: each clause's hypotheses choose the branch of its command. -/
theorem trackerCommandsComplete : Obligations.TrackerCommandsComplete := by
  intro s hup d m
  refine ⟨fun ss z hgo hnext => ?_, fun h u ss hneeds => ?_, fun src ws right hside => ⟨?_, ?_⟩,
    fun src ws hside => ⟨fun p q hp hq hne => ?_, fun h hh => ⟨?_, ?_⟩⟩, fun right hlate => ?_, ⟨?_, ?_, ?_, ?_⟩,
    fun ss n hlast => ?_⟩
  · exact exec_of_runLines (fun d => trackerLine d m ss) rfl hup hgo rfl
  · exact exec_of_runDev (fun d => unparkNeeded d h u) rfl hup rfl
  · exact exec_of_runDev (fun d => fragArrive m d src.toNat ws) rfl hup rfl
  · exact exec_of_runDev (fun d => seamFlushArrive m d src.toNat ws) rfl hup (seamFlushArrive_of_side m hside)
  · exact exec_of_runDev (fun d => joinArrive d src.toNat ws) rfl hup rfl
  · exact exec_of_runDev (fun d => sumArrive m d src.toNat ws false) rfl hup rfl
  · exact exec_of_runDev (fun d => sumArrive m d src.toNat ws true) rfl hup rfl
  · exact exec_of_runDev (fun d => if overdue d right then breakSide m d right else d) rfl hup (if_pos hlate)
  · exact exec_of_runDev (fun d => seamRearm d false false) rfl hup rfl
  · exact exec_of_runDev (fun d => seamRearm d true false) rfl hup rfl
  · exact exec_of_runDev (fun d => seamRearm d false true) rfl hup rfl
  · exact exec_of_runDev (fun d => seamRearm d true true) rfl hup rfl
  · exact exec_of_runDev (fun d => scrub d ss) rfl hup (scrub_of_last hlast)

end Sys2Proof.Machine
end

/-! # Border's commands complete (R324 to R367) -/

section
namespace Sys2Proof.Machine

section
variable {d : Dev} (m : Mem) (b : Boot)

/-- A note is taken first of what waits (R337). -/
theorem intake_note {r : Rec} {rs : List Rec} (hon : rb d (ra pgBorder 0x100) 31 = true) (hgo : d.border.stopped = false)
    (hjoin : joinWaits d = false) (hnote : d.bin.notes = r :: rs) :
    intake d m = numberRec { d with bin := { d.bin with notes := rs } } m r {} := by
  simp [intake, hon, hgo, hjoin, hnote]

theorem refineTimeout_of_due {t : Nat} (h : refineDue d = some t) : refineTimeout d m b = refineExpire (elapse d m b t) := by
  rw [refineTimeout, h]

theorem datagramSend_of_due {dd t : Nat} (hmay : mayStream d dd = true) (hdue : datagramDue d dd = some t)
    (hidle : (dest d dd).resend = none) : datagramSend d m b dd = sendQueued (elapse d m b t) dd := by
  simp [datagramSend, hmay, hdue, hidle]

theorem heartbeatDatagram_of_silence {dd : Nat} (hmay : mayStream d dd = true) (hms : rf d (destA dd 0x2C) 15 0 ≠ 0) :
    let e := elapse d m b ((dest d dd).sentAt + usCycles (1000 * rf d (destA dd 0x2C) 15 0))
    heartbeatDatagram d m b dd = sendDatagram e dd [fillRec e dd] false := by
  simp [heartbeatDatagram, hmay, hms]

omit m b in
theorem resendRequest_of_valid {dd : Nat} {x : List Byte} (hlen : x.length = 16) (hhead : ofLeBytes (x.take 3) = 0x017B1F)
    (hsome : ofLeBytes ((x.drop 4).take 2) ≠ 0) (hmost : ofLeBytes ((x.drop 4).take 2) ≤ 1024) (hidle : (dest d dd).resend = none) :
    resendRequest d dd true x = sendResent (setDest d dd { (dest d dd) with
      resend := some (ofLeBytes ((x.drop 8).take 6), ofLeBytes ((x.drop 4).take 2)) }) dd := by
  simp [resendRequest, hlen, hhead, hsome, Nat.not_lt.mpr hmost, hidle]

theorem coalTime_of_waiting {v : Nat} (h : (tget (fun _ => ((0, 0) : Nat × Nat)) d.hif.coal v).1 ≠ 0) :
    coalTime d m b v = coalTimeout (elapse d m b ((tget (fun _ => ((0, 0) : Nat × Nat)) d.hif.coal v).2 +
      usCycles (rf d (ringA (vectorRing v) 0x20) 15 0))) v := if_neg h

end

/-- Settles O5: each clause's hypotheses choose the branch of its command. -/
theorem borderCommandsComplete : Obligations.BorderCommandsComplete := by
  intro s hup d m b
  refine ⟨fun r rs hon hgo hjoin hnote => ?_, fun dd r hon hroom hopen hmiss hscan hgate hread => ?_, fun t ht => ?_,
    fun j js hj hready => ?_, fun p t hmay hdue hidle => ?_, fun p hmay hms => ?_, fun p x hmay hlen hhead hsome hmost hidle => ?_,
    fun v hv => ?_, fun p => ?_, fun p hdown => ?_⟩
  · exact exec_of_sendMem (fun d m => intake d m) rfl hup (intake_note m hon hgo hjoin hnote)
  · exact exec_of_sendMem (fun d m => deliver d m dd) rfl hup rfl
  · exact exec_of_sendDev (fun d => refineTimeout d m b) rfl hup (refineTimeout_of_due m b ht)
  · exact exec_of_sendMem (fun d m => patchWrite d m) rfl hup rfl
  · exact exec_of_sendDev (fun d => datagramSend d m b (1 + p)) rfl hup (datagramSend_of_due m b hmay hdue hidle)
  · exact exec_of_runDev (fun d => heartbeatDatagram d m b (1 + p)) rfl hup (heartbeatDatagram_of_silence m b hmay hms)
  · exact exec_of_runDev (fun d => if mayStream d (1 + p) then resendRequest d (1 + p) true x else d) rfl hup
      ((if_pos hmay).trans (resendRequest_of_valid hlen hhead hsome hmost hidle))
  · exact exec_of_sendDev (fun d => coalTime d m b v) rfl hup (coalTime_of_waiting m b hv)
  · exact exec_of_runDev (fun d => { d with ethUp := d.ethUp.filter (fun q => decide (q ≠ p.val)) }) rfl hup rfl
  · exact exec_of_runDev (fun d => if d.ethUp.contains p.val then d
      else { d with ethUp := isortIns (fun x y => decide (x ≤ y)) p.val d.ethUp }) rfl hup (if_neg (by rw [hdown]; decide))

end Sys2Proof.Machine
end

/-! # The host interface's commands complete (R352 to R363, R88 to R91) -/

section
namespace Sys2Proof.Machine

/-- The command at the front of the submission ring (R361). -/
def cmdWords (d : Dev) (m : Mem) : List Dword :=
  (List.range 8).map (fun i => BitVec.ofNat 64 (ofLeBytes (mread zeroByte m.host (ringAddr d 3 (ringCons d 3) + 8 * i) 8)))

/-- The tag of a command (R356). -/
def cmdTag (ws : List Dword) : Nat := dfld (dwAt ws 0) 24 16

/-- The part once the submission ring's CONS has moved on by one. -/
def tookCmd (d : Dev) : Dev := ringFull (wrapBy d (ringA 3 16) 31 0 1) 3

/-- The part with one command more outstanding. -/
def withCmd (e : Dev) (ws : List Dword) : Dev :=
  { e with hif := { e.hif with cmds := e.hif.cmds ++ [{ tag := cmdTag ws, words := ws, fetched := e.cycle }] } }

section
variable {d : Dev} (m : Mem) (b : Boot) {tag : Nat} {c : HostCmd}

theorem fetchCmd_of_new (hon : ringOn d 3 = true) (hused : ringUsed d 3 ≠ 0) (hroom : d.hif.cmds.length < 512)
    (hnew : cmdOf (tookCmd d) (cmdTag (cmdWords d m)) = none) : fetchCmd d m =
    if (dwAt (cmdWords d m) 0).getLsbD 8 then fenceOpen (withCmd (tookCmd d) (cmdWords d m)) (cmdTag (cmdWords d m))
    else takeTail (withCmd (tookCmd d) (cmdWords d m)) (cmdTag (cmdWords d m)) := by
  have hgo : ¬ (!ringOn d 3 || decide (ringUsed d 3 = 0) || decide (512 ≤ d.hif.cmds.length)) = true := by
    simp [hon, hused, hroom]
  exact (if_neg hgo).trans (if_neg (by simpa [tookCmd, cmdTag, cmdWords] using hnew))

omit m in
theorem fenceOpen_of_done (h : cmdOf d tag = some c) (hwaits : c.go = false)
    (hdone : (cmdsBefore d tag).all (fun k => k.fin.isSome) = true) : fenceOpen d tag = takeTail d tag := by
  rw [fenceOpen, h]
  exact if_pos (by rw [hwaits, hdone]; rfl)

omit m in
theorem nopCmd_of_startable (h : startable d tag 0 = some c) : nopCmd d tag = finishCmd d tag {} := by
  rw [nopCmd, h]

theorem bulkRead_of_startable (h : startable d tag 1 = some c) (hgo : d.restart = false) (hoff : bulkOffset c % 4 = 0) :
    let q := bulkReads b (bulkCount c) (bulkOffset c) d
    let bs := q.2.1.flatMap wordBytes
    bulkRead d m b tag true = (finishCmd q.1 tag (resultEnd c bs.length (if q.2.2 then stOk else stBadArg) 0), putResult m c bs) := by
  simp [bulkRead, h, hgo, hoff]

theorem bulkWrite_of_startable (h : startable d tag 2 = some c) (hgo : d.restart = false) (hoff : bulkOffset c % 4 = 0)
    (hroom : 4 * bulkCount c ≤ c.room) :
    let vs := (List.range (bulkCount c)).map (fun i => BitVec.ofNat 32 (ofLeBytes (mread zeroByte m.host (c.buf + 4 * i) 4)))
    let q := bulkWrites vs (bulkOffset c) (d, m, b)
    bulkWrite d m b tag true =
      drainHeld (finishCmd q.1.1 tag { status := if q.2.2 then stOk else stBadArg, value := q.2.1 }, q.1.2) := by
  simp [bulkWrite, h, hgo, hoff, Nat.not_lt.mpr hroom]

omit m in
theorem reprocessCmd_of_new (h : startable d tag 0x20 = some c) (hnew : (d.jobq ++ runningJobs d).any (fun j => decide (j.tag = tag)) = false)
    (hok : jobCheck d c.words = none) : reprocessCmd d tag = histStat { d with jobq := d.jobq ++ [jobOf c.words] } := by
  simp only [reprocessCmd, h, hnew, hok, Bool.false_eq_true, if_false]

theorem jobDone_of_finish {k : Nat} {r : Dev × Mem × Job × Nat} (h : jobFinish d m k = some r) : jobDone d m k =
    (finishCmd r.1 r.2.2.1.tag { status := r.2.2.2, len := 64 + 64 * r.2.2.1.recs, value := r.2.2.1.recs }, r.2.1) := by
  rw [jobDone, h]

end

/-- Settles O6: each clause's hypotheses choose the branch of its command. -/
theorem hostInterfaceCommandsComplete : Obligations.HostInterfaceCommandsComplete := by
  intro s hup d m b
  refine ⟨?_, fun hon hused hroom hnew => ?_, fun tag c hc hwaits hdone => ?_, fun tag c hc => ?_, fun tag c hc hgo hoff => ?_,
    fun tag c hc hgo hoff hroom => ?_, fun tag c hc => ?_, fun tag c hc => ?_, fun tag c hc hnew hok => ?_,
    fun tag ts c hfin hc hroom => ?_, fun k r hr => ?_⟩
  · exact exec_of_runDev hostReset rfl hup rfl
  · exact exec_of_runDev (fun d => fetchCmd d m) rfl hup (fetchCmd_of_new m hon hused hroom hnew)
  · exact exec_of_runDev (fun d => fenceOpen d tag) rfl hup (fenceOpen_of_done hc hwaits hdone)
  · exact exec_of_runDev (fun d => nopCmd d tag) rfl hup (nopCmd_of_startable hc)
  · exact exec_of_runMem (fun d m => bulkRead d m b tag true) rfl hup (bulkRead_of_startable m b hc hgo hoff)
  · exact exec_of_upState (fun d m b => bulkWrite d m b tag true) rfl hup (bulkWrite_of_startable m b hc hgo hoff hroom)
  · exact exec_of_runMem (fun d m => patchFetch d m tag true) rfl hup rfl
  · exact exec_of_runMem (fun d m => recordFetch d m tag true) rfl hup rfl
  · exact exec_of_runDev (fun d => reprocessCmd d tag) rfl hup (reprocessCmd_of_new hc hnew hok)
  · exact exec_of_runMem (fun d m => writeCompletion d m) rfl hup rfl
  · exact exec_of_runMem (fun d m => jobDone d m k) rfl hup (jobDone_of_finish m hr)

end Sys2Proof.Machine
end

/-! # Memory commands complete (R371 to R441) -/

section
namespace Sys2Proof.Machine

theorem pointChange_of_ok {d : Dev} {p : Nat} (hbusy : rb d (ra pgLpx 0x104) 31 = false) (hp : p ≠ lpxPoint d)
    (hok : pointOk d p = true) :
    pointChange d p = evt (poke (poke (payAll d) (ra pgLpx 0x104) 1 0 p) (ra pgLpx 0x104) 5 4 p) pgLpx 6 := by
  simp [pointChange, hbusy, hp, hok]

/-- With no real-time traffic waiting and nothing postponed, the rank is refreshed at once (R424). -/
theorem refreshDue_idle {d : Dev} {cc r : Nat} (hself : rb d (ra (pgLpxCh cc) 0x100) 27 = false) (hrank : r < lpxRanks d)
    (hpay : inPayback (lpc d cc) r = false) (hrefuse : (lpc d cc).refusing.contains r = false) :
    refreshDue d cc r false = lpxStat (setLpc d cc (closeRank (setOwed (lpc d cc) r 0) r)) cc := by
  have hrun : ¬ (rb d (ra (pgLpxCh cc) 0x100) 27 = true ∨ lpxRanks d ≤ r) := by
    simp [hself, hrank]
  simp only [refreshDue, if_neg hrun, hpay, hrefuse, Bool.false_eq_true, if_false]

/-- Settles O7: each clause's hypotheses choose the branch of its command. -/
theorem memoryCommandsComplete : Obligations.MemoryCommandsComplete := by
  intro s hup d m b
  refine ⟨fun nn ch cs hchunk => ?_, fun k j hfree hpick hcool hgo => ?_, fun k j hj hrun hcool hgo => ?_,
    fun p hbusy hp hok => ?_, fun cc r hself hrank hpay hrefuse => ?_, fun cc x y => ?_, fun cc r k hk => ?_, fun cc r k => ?_,
    fun cc rs => ?_, fun cc l t => ?_, fun cc rs => ?_⟩
  · exact exec_of_runMem (fun d m => chunkWrite d m nn true) rfl hup rfl
  · exact exec_of_runDev startJob rfl hup rfl
  · exact exec_of_runMem (fun d m => jobNext d m k) rfl hup rfl
  · exact exec_of_runDev (fun d => pointChange d p.toNat) rfl hup (pointChange_of_ok hbusy hp hok)
  · exact exec_of_runDev (fun d => refreshDue d cc r.toNat false) rfl hup (refreshDue_idle hself hrank hpay hrefuse)
  · exact exec_of_runDev (fun d => ratePoll d cc x y) rfl hup rfl
  · exact exec_of_runDev (fun d => paybackWindow d cc r.toNat) rfl hup rfl
  · exact exec_of_runDev (fun d => bankIdle d cc r.toNat k) rfl hup rfl
  · exact exec_of_runDev (fun d => lpxTrain d cc rs) rfl hup rfl
  · exact exec_of_runDev (fun d => oscTrack d cc l.toNat t) rfl hup rfl
  · exact exec_of_runDev (fun d => qdrTrain d cc rs) rfl hup rfl

end Sys2Proof.Machine
end

/-! # Fabric link commands complete (R442 to R471) -/

section
namespace Sys2Proof.Machine

theorem linkEnable_of_off {d : Dev} {p : Nat} {cfg : Word} (hoff : rb d (fabCfgA p) 31 = false) (hon : bitOf cfg 31 = true)
    (hfree : portHeld (setReg d (fabCfgA p) (cfg &&& 0xFE000000)) p = false) :
    linkEnable d p cfg = startTraining (setReg d (fabCfgA p) (cfg &&& 0xFE000000)) p :=
  (if_pos hon).trans (if_neg (Bool.not_eq_true _ ▸ (by rw [hoff, Bool.false_or]; exact hfree)))

section
variable {d : Dev} (m : Mem) (b : Boot) {p : Nat}

theorem bringupTimeout_of_training (htrain : rb d (fabStatA p) 30 = true) (hdown : rb d (fabStatA p) 31 = false) :
    bringupTimeout d m b p = linkRestart (elapse d m b ((fbp d p).trainAt + 2000000)) p := by
  simp [bringupTimeout, htrain, hdown]

theorem ackTimeout_of_waiting {t : Nat} (h : (fbp d p).ackAt = some t)
    (hstill : (fbp (elapse d m b (t + 80)) p).ackAt.isSome = true) :
    ackTimeout d m b p = sendLink (elapse d m b (t + 80)) p [0] := by
  rw [ackTimeout, h]
  exact if_pos hstill

theorem replayTimeout_of_unacked (hup : fabUp d p = true) (hsent : (fbp d p).replay ≠ []) :
    replayTimeout d m b p = replayAll (elapse d m b ((fbp d p).oldestAt + 1600)) p := by
  simp [replayTimeout, hup, hsent]

theorem nakRepeat_of_expected (hup : fabUp d p = true) (hnak : (fbp d p).nakFor = some (fbp d p).rxSeq) :
    nakRepeat d m b p = nakAgain (elapse d m b ((fbp d p).nakAt + 1600)) p := by
  simp [nakRepeat, hup, hnak]

theorem nodeTimeout_of_seen {serial : Nat} {z : SeenNode} (h : d.node.seen.find? (fun n => decide (n.serial = serial)) = some z) :
    nodeTimeout d m b serial = nodeGone (elapse d m b (z.lastAt + 120000000)) serial := by
  rw [nodeTimeout, h]

theorem election_of_candidate (hon : fabOn d = true) (hen : rb d (ra pgFab 0x100) 30 = true) :
    election d m b = elect (elapse d m b (d.node.newAt + 4000000)) := by
  simp [election, hon, hen]

theorem heldFrameDrop_of_down (hdown : fabUp d p = false) (hheld : (fbp d p).held ≠ []) :
    heldFrameDrop d m b p = dropHeld (elapse d m b ((fbp d p).heldAt + 800000)) p := by
  simp [heldFrameDrop, hdown, hheld]

end

/-- The node that a NODE_TIMEOUT names is among those heard. -/
theorem seen_any_of_find {d : Dev} {serial id : Nat} {z : SeenNode}
    (h : d.node.seen.find? (fun n => decide (n.serial = serial)) = some z) (hid : z.idValid = false ∨ z.id = id) :
    d.node.seen.any (fun n => decide (n.serial = serial) && (!n.idValid || decide (n.id = id))) = true := by
  have hserial : z.serial = serial := by simpa using List.find?_some h
  refine List.any_eq_true.mpr ⟨z, List.mem_of_find?_eq_some h, ?_⟩
  obtain hid | hid := hid <;> simp [hserial, hid]

/-- Settles O8: each clause's hypotheses choose the branch of its command. -/
theorem fabricLinkCommandsComplete : Obligations.FabricLinkCommandsComplete := by
  intro s hup d m b
  refine ⟨fun p cfg hoff hon hfree => ?_, fun p good k x htrain hdown hlanes => ?_, fun p htrain hdown => ?_, fun p slip hlink => ?_,
    fun p t ht hstill => ?_, fun p hlink hsent => ?_, fun p hlink hnak => ?_, fun hon => ?_, fun k serial z hz hid => ?_,
    fun hon hen => ?_, fun hlead => ?_, fun hown => ?_, fun p hdown hheld => ?_⟩
  · exact exec_of_runDev (fun d => linkEnable d p cfg) rfl hup (linkEnable_of_off hoff hon hfree)
  · exact exec_of_runDev (fun d => linkUp d p good.toNat k x) rfl hup rfl
  · exact exec_of_runDev (fun d => bringupTimeout d m b p) rfl hup (bringupTimeout_of_training m b htrain hdown)
  · exact exec_of_runDev (fun d => linkLoss d p slip.toNat) rfl hup rfl
  · exact exec_of_runDev (fun d => ackTimeout d m b p) rfl hup (ackTimeout_of_waiting m b ht hstill)
  · exact exec_of_runDev (fun d => replayTimeout d m b p) rfl hup (replayTimeout_of_unacked m b hlink hsent)
  · exact exec_of_runDev (fun d => nakRepeat d m b p) rfl hup (nakRepeat_of_expected m b hlink hnak)
  · exact exec_of_runDev (fun d => if fabOn d then sendHello d else d) rfl hup (if_pos hon)
  · exact exec_of_runDev (fun d => if d.node.seen.any (fun n => decide (n.serial = serial.toNat) &&
      (!n.idValid || decide (n.id = k.toNat))) then nodeTimeout d m b serial.toNat else d) rfl hup
      ((if_pos (seen_any_of_find hz hid)).trans (nodeTimeout_of_seen m b hz))
  · exact exec_of_runDev (fun d => election d m b) rfl hup (election_of_candidate m b hon hen)
  · exact exec_of_runDev (fun d => assignRepeat d m b) rfl hup (if_pos hlead)
  · exact exec_of_runDev (fun d => if rb d (ra pgFab 0x100) 28 then d else computeTables d) rfl hup (if_neg (by simp [d, hown]))
  · exact exec_of_runDev (fun d => heldFrameDrop d m b p) rfl hup (heldFrameDrop_of_down m b hdown hheld)

end Sys2Proof.Machine
end

/-! # Fabric node commands complete (R461, R472 to R488) -/

section
namespace Sys2Proof.Machine

/-- The part, its reference heard at this instant (R475). -/
def refHeardNow (d : Dev) : Dev := { d with node := { d.node with refHeard := d.cycle } }

/-- The part, a sample of relay `r` heard at this instant (R478). -/
def relayHeardNow (d : Dev) (r : Nat) : Dev :=
  { d with node := { d.node with relays := tmod d.node.relays r (fun x => { x with lastAt := d.cycle }) } }

section
variable {d : Dev} (m : Mem) (b : Boot)

/-- The part with one more frame of the reference waiting for edge `t` (R473). -/
def refWaits (e : Dev) (ws : List Dword) (t : Nat) : Dev :=
  { e with node := { e.node with waits := e.node.waits ++ [{ words := ws, at' := t }] } }

theorem refArrive_of_master {src n : Nat} {ws : List Dword} {e : Dev} (hremote : remoteRef d = true)
    (hfrom : fromMaster d src = true) (hline : kindOf ws = 0) (he : refHeardNow d = e)
    (hwait : waitCycles e ((refTime ws : Int) + refDelay e) = some n) :
    refArrive d m b src ws = refWaits e ws (e.cycle + n) := by
  have hgo : (remoteRef d && fromMaster d src) = true := by simp [hremote, hfrom]
  rw [refHeardNow] at he
  rw [refArrive, if_pos hgo, he]
  clear hgo he hremote hfrom
  simp only [if_pos hline, hwait, refWaits]

theorem refWaitEnds_of_first {x : RefWait} (h : firstWait d.node.waits = some x) : refWaitEnds d m b =
    refEffect { elapse d m b x.at' with node := { (elapse d m b x.at').node with
      waits := (elapse d m b x.at').node.waits.erase x } } m b x.words := by
  rw [refWaitEnds, h]

omit m b in
theorem refSilent_of_heard (hremote : remoteRef d = true) (hheard : rb d (ra pgFab 0x104) 26 = false) :
    refSilent d = raiseOpen (evt (pokeBit d (ra pgFab 0x104) 26 true) pgFab 4) pgFab 0x50 2 6 := by
  simp [refSilent, hremote, hheard]

/-- The part with one more sample of relay `r` waiting for edge `t` (R478). -/
def relayWaits (e : Dev) (r : Nat) (ws : List Dword) (t : Nat) : Dev :=
  { e with node := { e.node with relays := tmod e.node.relays r (fun x =>
    { x with waits := x.waits ++ [{ words := ws, at' := t }] }) } }

/-- The part that hears the sample is a variable, so that no later step evaluates the instant the sample waits for. -/
theorem relayArrive_of_source {r src n : Nat} {ws : List Dword} {e : Dev} (hin : relayIn d r = true)
    (hsrc : rf d (relayCfgA r) 29 24 = src) (he : relayHeardNow d r = e)
    (hwait : waitCycles e (sampleTime e (dwAt ws 2) + refDelay e) = some n) :
    relayArrive d m b r src ws = relayWaits e r ws (e.cycle + n) := by
  have hgo : (relayIn d r && decide (rf d (relayCfgA r) 29 24 = src)) = true := by simp [hin, hsrc]
  rw [relayHeardNow] at he
  rw [relayArrive, if_pos hgo, he]
  clear hgo he hin hsrc
  simp only [hwait, relayWaits]

/-- The part once the wait `x` of relay `r` has ended (R478). -/
def relayWaited (e : Dev) (r : Nat) (x : RefWait) : Dev :=
  { e with node := { e.node with relays := tmod e.node.relays r (fun y => { y with waits := y.waits.erase x }) } }

theorem relayWaitEnds_of_first {r : Nat} {x : RefWait} (h : firstWait (tat d.node.relays r).waits = some x)
    (hin : relayIn (relayWaited (elapse d m b x.at') r x) r = true) :
    relayWaitEnds d m b r = relayApply (relayWaited (elapse d m b x.at') r x) m b r (toSigned 64 (dwAt x.words 1).toNat) := by
  rw [relayWaitEnds, h]
  exact if_pos hin

omit m b in
theorem voteArrive_of_own {src : Nat} {ws : List Dword} {p : EpochPrep} (hown : d.node.own = some p)
    (hid : dfld (dwAt ws 0) 31 0 = p.id) : voteArrive d src ws = { d with node := { d.node with
      votes := d.node.votes.filter (fun v => decide (v.1 ≠ src)) ++ [(src, dfld (dwAt ws 0) 59 59 == 1)] } } := by
  rw [voteArrive, hown]
  exact if_pos hid

omit m b in
theorem ackRecords_of_unacked {k q : Nat} (hlast : (coll d k).last = some q) (hsome : (coll d k).unacked ≠ 0) :
    ackRecords d k = originate (setColl d k { (coll d k) with unacked := 0, ackedAt := some d.cycle }) 5 (some k)
      [dpack [(60, 4, 1), (0, 48, q)]] := by
  simp only [ackRecords, hlast, if_neg hsome]

theorem recordAckSend_of_due {k t : Nat} (h : ackDue (coll d k) = some t) :
    recordAckSend d m b k = ackRecords (elapse d m b t) k := by
  rw [recordAckSend, h]

end

/-- Settles O9: each clause's hypotheses choose the branch of its command. -/
theorem fabricNodeCommandsComplete : Obligations.FabricNodeCommandsComplete := by
  intro s hup d m b
  refine ⟨fun hmaster hlocal => ?_, fun src ws n hremote hfrom hline hwait => ?_, fun x hx hpast => ?_,
    fun hremote hremote' hheard => ?_, fun r hout hout' => ?_, fun r src ws n hin hsrc hwait => ?_, fun r x hx hin => ?_,
    fun r hin => ?_, fun hsource => ?_, fun p hlink => ?_, fun src ws => ?_, fun src ws p hown hid => ?_, fun src ws hnew => ?_,
    fun src ws hsrc => ?_, fun k t q hdue hlast hsome => ?_, fun hwaits => ?_⟩
  · exact exec_of_runDev (fun d => refIdleTimer d m b) rfl hup (if_pos (by simp [d, hmaster, hlocal]))
  · exact exec_of_runDev (fun d => refArrive d m b src.toNat ws) rfl hup (refArrive_of_master m b hremote hfrom hline rfl hwait)
  · exact exec_of_runDev (fun d => refWaitEnds d m b) rfl hup (refWaitEnds_of_first m b hx)
  · exact exec_of_runDev (fun d => if remoteRef d then refSilent (elapse d m b (d.node.refHeard + refLoss d)) else d) rfl hup
      ((if_pos hremote).trans (refSilent_of_heard hremote' hheard))
  · exact exec_of_runDev (fun d => if relayOut d r then relayPublish (elapse d m b (tat d.node.relays r).nextPub) r else d) rfl hup
      (if_pos hout)
  · exact exec_of_runDev (fun d => relayArrive d m b r src.toNat ws) rfl hup (relayArrive_of_source m b hin hsrc rfl hwait)
  · exact exec_of_runDev (fun d => relayWaitEnds d m b r) rfl hup (relayWaitEnds_of_first m b hx hin)
  · exact exec_of_runDev (fun d => if relayIn d r then setStale (elapse d m b ((tat d.node.relays r).lastAt + refLoss d)) (6 + r)
      else d) rfl hup (if_pos hin)
  · exact exec_of_runDev syncSend rfl hup (if_pos hsource)
  · exact exec_of_runDev (fun d => pdelayAsk d p) rfl hup (if_pos hlink)
  · exact exec_of_runDev (fun d => prepareArrive d m src.toNat ws) rfl hup rfl
  · exact exec_of_runDev (fun d => voteArrive d src.toNat ws) rfl hup (voteArrive_of_own hown hid)
  · exact exec_of_runDev (fun d => recordArrive d src.toNat ws) rfl hup rfl
  · exact exec_of_runDev (fun d => if src.toNat = rf d (destA 3 0) 5 0 then recordAckArrive d ws else d) rfl hup (if_pos hsrc)
  · exact exec_of_runDev (fun d => recordAckSend d m b k.toNat) rfl hup
      ((recordAckSend_of_due m b hdue).trans (ackRecords_of_unacked hlast hsome))
  · exact exec_of_runDev dest3Resend rfl hup (if_pos hwaits)

end Sys2Proof.Machine
end

/-! # Frames that arrive are taken (R451 to R457, R463 to R465, R479) -/

section
namespace Sys2Proof.Machine

theorem frameArrive_of_accepted {d : Dev} {m : Mem} {b : Boot} {p : Nat} {f : Frame} {w : Wire} {t : WireTime}
    (hlink : fabUp d p = true) (htaken : (linkAccept d p f w).2 = true) :
    frameArrive d m b p f w t = handleFrame (linkAccept d p f w).1 m b p f t := by
  rw [frameArrive, if_neg (by simp [hlink])]
  exact if_pos htaken

theorem namedFrame_of_accepted {s : State} {p cls kind : Nat} {f : Frame} {t : WireTime} (hup : s.dev.life = .up)
    (hlink : fabUp s.dev p = true) (htaken : (linkAccept s.dev p f { crcOk := true, blockError := false }).2 = true)
    (hcls : f.cls.toNat = cls) (hkind : kindOf f.payload = kind) :
    namedFrame s p f cls kind t = .next (s.put
      (handleFrame (linkAccept s.dev p f { crcOk := true, blockError := false }).1 s.mem s.boot p f t)) := by
  rw [namedFrame, anyState, if_pos ⟨hup, hcls, hkind⟩, frameArrive_of_accepted hlink htaken]

/-- Settles O10: a frame that the link accepts is handled, under whichever row it is given. -/
theorem frameCommandsComplete : Obligations.FrameCommandsComplete := by
  intro s hup d m b p f hlink whole
  have named {cls : BitVec 4} {kind : Nat} (t : WireTime) (htaken : (linkAccept d p f whole).2 = true) (hcls : f.cls = cls)
      (hkind : kindOf f.payload = kind) :=
    namedFrame_of_accepted (t := t) hup hlink htaken (congrArg _ hcls) hkind
  refine ⟨fun w htaken => ?_, fun htaken => ⟨fun hcls hkind => ?_, fun hcls hkind => ?_, fun hcls hkind => ?_, fun hcls hkind => ?_,
    fun t hcls hkind => ?_, fun t hcls hkind => ?_⟩⟩
  · exact exec_of_upState (fun d m b => frameArrive d m b p f w (wireNow d)) rfl hup (frameArrive_of_accepted hlink htaken)
  · exact named (wireNow d) htaken hcls hkind
  · exact named (wireNow d) htaken hcls hkind
  · exact named (wireNow d) htaken hcls hkind
  · exact named (wireNow d) htaken hcls hkind
  · exact named t htaken hcls hkind
  · exact named t htaken hcls hkind

end Sys2Proof.Machine
end

/-! # Time and PTP commands complete (R493 to R513) -/

section
namespace Sys2Proof.Machine

section
variable {d : Dev}

theorem timeStep_of_allowed {f : Bool} (h : stepAllowed d f = true) (t : Nat) (ns : Int) : timeStep d f t ns = stepTo d t ns :=
  if_pos h

theorem servoSet_of_beyond {sec ns frac : Nat} {off : Int} (hsrc : timeSource d ≠ 0) (hthr : rf d (timeA 0x100) 29 0 ≠ 0)
    (hoff : rf d (timeA 0x100) 29 0 < Int.natAbs off) (h : stepAllowed d false = true) :
    let z := if timeSource d = 1 then rf d (timeA 0x144) 15 0 * 2 ^ 48 + sec % 2 ^ 48 else sec % 2 ^ 64
    let t := timeOf z (ns % 1000000000) (frac % 65536)
    servoSet d sec ns frac off = stepTo d t (roundShr ((t : Int) - d.time.now) 32) :=
  (if_neg (not_or.mpr ⟨hsrc, not_or.mpr ⟨hthr, Nat.not_le.mpr hoff⟩⟩)).trans (timeStep_of_allowed h _ _)

theorem adjDone_of_room (m : Mem) (b : Boot) (h : (timeRoom d d.time.adj).toNat ≠ 0) : adjDone d m b =
    elapse d m b (d.cycle + (d.time.adj.natAbs + (timeRoom d d.time.adj).toNat - 1) / (timeRoom d d.time.adj).toNat) :=
  if_neg h

theorem ptpLost_of_used (hsrc : timeSource d ≠ 0) (hheard : rb d (timeA 0x104) 26 = false) :
    ptpLost d = evt (pokeBit d (timeA 0x104) 26 true) pgTime 2 :=
  if_neg (not_or.mpr ⟨hsrc, by simp [hheard]⟩)

theorem tcBridge_of_forwarded {f : BridgeFrame} (hon : rb d (ptpA 0x100) 27 = true) (hthrough : f.toPartAlone = false)
    (hup : d.ethUp.contains (1 - f.port.val) = true)
    (hres : f.residence + latIngress d f.port + latEgress d (1 - f.port.val) ≤ 10000 * 65536) :
    tcBridge d f = emit (count d (ptpA (0x124 + 0x10 * (1 - f.port.val)))) (.bridge (1 - f.port.val)
      (if f.kind = .event then f.correction + (f.residence + latIngress d f.port + latEgress d (1 - f.port.val)) else f.correction)) := by
  rw [tcBridge, if_neg (by simp [hon, hthrough])]
  exact if_neg (by simpa [Bool.or_eq_true] using ⟨by simpa using hup, hres⟩)

theorem ptpDelayReq_of_receiver (hrole : ptpRole d 1 = true) (hup : d.ethUp.contains (rb d (ptpA 0x100) 28).toNat = true)
    (hbest : (bestMaster d).isSome = true) : ptpDelayReq d = ptpSend
      { d with ptp := { d.ptp with reqAt := some ((ptpNow d + latEgress d (rb d (ptpA 0x100) 28).toNat) % ptpWrap) } }
      (rb d (ptpA 0x100) 28).toNat 1 none 0 0 :=
  if_pos (by simp only [hrole, hup, hbest, Bool.and_self])

theorem ptpAnswer_of_grandmaster {p : Nat} {dom : BitVec 8} (ident : Dword) (corr : Int) (hrole : ptpRole d 2 = true)
    (hdom : ptpDomain d dom = true) (hup : d.ethUp.contains p = true) : ptpAnswer d p dom ident corr =
      ptpSend d p 9 (some ((ptpNow d - latIngress d p) % ptpWrap).toNat) corr ident :=
  if_pos (by simp only [hrole, hdom, hup, Bool.and_self])

theorem ptpDelayResp_of_asked {p : Nat} {dom : BitVec 8} {t1 t2 t3 : Int} (w : WireTime) (corr : Int)
    (hlisten : ptpListens d p = true) (hdom : ptpDomain d dom = true) (hreq : d.ptp.reqAt = some t3)
    (hsync : d.ptp.sync = some (t1, t2)) : ptpDelayResp d p dom w corr = { d with ptp := { d.ptp with
      reqAt := none, delay := shr (ptpDiff t2 t1 + ptpDiff (wireTime w - corr) t3) 1 } } := by
  rw [ptpDelayResp, if_pos (by simp only [hlisten, hdom, Bool.and_self]), hreq, hsync]

end

/-- Settles O11: each clause's hypotheses choose the branch of its command. -/
theorem timeCommandsComplete : Obligations.TimeCommandsComplete := by
  intro s hup d m b
  refine ⟨fun hi => ?_, fun hroom => ?_, fun f hf => ?_, fun f hf => ?_, fun sec ns frac off hsrc hthr hoff hf => ?_,
    fun x hlisten hdom hbest => ?_, fun x hdom hown hrole => ?_, fun hsrc hheard => ?_, fun f hon hthrough hlink hres => ?_,
    fun hrole => ⟨?_, ?_⟩, fun hrole hlink hbest => ?_, fun p dom ident corr hrole hdom hlink => ?_,
    fun p dom w corr t1 t2 t3 hlisten hdom hreq hsync => ?_⟩
  · exact exec_of_runDev (fun d => timeAdjWrite d hi.toNat) rfl hup rfl
  · exact exec_of_runDev (fun d => adjDone d m b) rfl hup (adjDone_of_room m b hroom)
  · exact exec_of_runDev (fun d => timeSet d f) rfl hup (timeStep_of_allowed hf _ _)
  · exact exec_of_runDev (fun d => timeStepGo d f) rfl hup (timeStep_of_allowed hf _ _)
  · exact exec_of_runDev (fun d => servoSet d sec ns frac off) rfl hup (servoSet_of_beyond hsrc hthr hoff hf)
  · exact exec_of_runDev (fun d => ptpUseSync d x) rfl hup rfl
  · exact exec_of_runDev (fun d => ptpAnnounce d x) rfl hup rfl
  · exact exec_of_runDev (fun d => ptpLost (elapse d m b (srcLostAt d))) rfl hup (ptpLost_of_used hsrc hheard)
  · exact exec_of_runDev (fun d => tcBridge d f) rfl hup (tcBridge_of_forwarded hon hthrough hlink hres)
  · exact exec_of_runDev ptpSyncOut rfl hup rfl
  · exact exec_of_runDev ptpAnnounceOut rfl hup rfl
  · exact exec_of_runDev ptpDelayReq rfl hup (ptpDelayReq_of_receiver hrole hlink hbest)
  · exact exec_of_runDev (fun d => ptpAnswer d p dom ident corr) rfl hup (ptpAnswer_of_grandmaster ident corr hrole hdom hlink)
  · exact exec_of_runDev (fun d => ptpDelayResp d p dom w corr) rfl hup (ptpDelayResp_of_asked w corr hlisten hdom hreq hsync)

end Sys2Proof.Machine
end

/-! # The Pairing's commands complete (R514 to R543) -/

section
namespace Sys2Proof.Machine

section
variable {d : Dev} (m : Mem) (b : Boot)

/-- The part, PAIR_ACT_IN seen at `x` (R518). -/
def sawAct (e : Dev) (x : Bool) : Dev := setPair e { e.pair with actIn := x }

theorem claimEnds_of_act {t : Nat} (h : d.pair.claimAt = some t) :
    claimEnds d m b true = startJoin (sawAct (elapse d m b t) true) := by
  rw [claimEnds, h]
  rfl

theorem claimEnds_of_free {t : Nat} (h : d.pair.claimAt = some t) : claimEnds d m b false =
    setPair (becomeActive (sawAct (elapse d m b t) false))
      { (becomeActive (sawAct (elapse d m b t) false)).pair with
        claimed := some (becomeActive (sawAct (elapse d m b t) false)).cycle } := by
  rw [claimEnds, h]
  rfl

theorem claimConfirm_of_free {t : Nat} (h : d.pair.claimed = some t) : claimConfirm d m b false =
    setPair (elapse d m b (t + 400)) { (elapse d m b (t + 400)).pair with actIn := false, claimed := none } := by
  rw [claimConfirm, h]
  rfl

theorem claimConfirm_of_side1 {t : Nat} (h : d.pair.claimed = some t) (hside : b.side = true) :
    claimConfirm d m b true = startJoin (sawAct d true) := by
  rw [claimConfirm, h, hside]
  rfl

theorem claimConfirm_of_side0 {t : Nat} (h : d.pair.claimed = some t) (hside : b.side = false) :
    claimConfirm d m b true = setPair d { d.pair with actIn := true, claimed := some d.cycle } := by
  rw [claimConfirm, h, hside]
  rfl

theorem linkSilent_of_well (hen : pairEn d = true) (hok : d.pair.okIn = true) (hst : pairState d ≠ 0) : linkSilent d m b =
    unsync (evt (elapse d m b (d.pair.heardAt + usCycles (rf d (pairA 0x114) 31 24))) pgPair 7) :=
  if_pos (by simp [hen, hok, hst])

theorem okFalls_of_standby (hen : pairEn d = true) (hst : pairState d = 3 ∨ pairState d = 6) :
    okFalls d m = takeOver (setPair d { d.pair with okIn := false, actIn := false }) m := by
  have hen' : pairEn (setPair d { d.pair with okIn := false, actIn := false }) = true := hen
  have hst' : pairState (setPair d { d.pair with okIn := false, actIn := false }) = 3 ∨
      pairState (setPair d { d.pair with okIn := false, actIn := false }) = 6 := hst
  rw [okFalls, if_neg (by simp [hen'])]
  obtain h | h := hst'
  · rw [h]
    rfl
  · rw [h]
    rfl

theorem joinEnds_of_failed {cause : Nat} (hen : pairEn d = true) (hst : pairState d = 2) (h0 : cause ≠ 0) (h1 : cause ≠ 1)
    (h3 : cause ≠ 3) : joinEnds d m b cause =
      startJoin (evt (count (poke d (pairA 0x12C) 28 24 cause) (pairA 0x154)) pgPair 9) := by
  simp only [joinEnds, if_neg (not_not_intro hst)]
  exact if_pos (by simp [hen, hst])

theorem takeJoin_of_position {ws : List Dword} (hen : pairEn d = true) (hstep : dfld (dwAt ws 0) 59 56 = 1)
    (hst : pairState (pairHeard d) = 2) : takeJoin d m ws =
      setPair (pairHeard d) { (pairHeard d).pair with joinFrom := some (dwAt ws 1).toNat } := by
  rw [takeJoin, if_neg (by simp [hen]), hstep, if_neg (by decide), if_neg (by simp [hst])]
  rfl

end

section
variable {d : Dev}

theorem encCheck_of_changed (hen : pairEn d = true) (hon : rb d (pairA 0x100) 27 = true) (hdiff : checkDiff d ≠ d.pair.encDiff) :
    encCheck d = unsync (raiseOpen
      (evt (count (setPair d { d.pair with encDiff := checkDiff d }) (pairA 0x148)) pgPair 6) pgPair 0x51 2 6) :=
  if_pos (by simp [hen, hon, hdiff])

theorem takeDigest_of_paired (hen : pairEn d = true) (ws : List Dword) : takeDigest d ws = matchDigests (setPair (pairHeard d)
    { (pairHeard d).pair with
        twinDigests := ((pairHeard d).pair.twinDigests ++ [digestOf ws]).drop ((pairHeard d).pair.twinDigests.length - 7) }) :=
  if_neg (by simp [hen])

theorem digestLate_of_due {g : Digest}
    (h : d.pair.digests.find? (fun g => decide (256 * (g.block + 3) ≤ d.pos.sysLine + 1)) = some g) : digestLate d =
      (if compares (setPair d { d.pair with digests := d.pair.digests.filter (fun k => decide (k.block > g.block)) }) then
        disagree (setPair d { d.pair with digests := d.pair.digests.filter (fun k => decide (k.block > g.block)) })
      else setPair d { d.pair with digests := d.pair.digests.filter (fun k => decide (k.block > g.block)) }) := by
  rw [digestLate, h]

theorem pairCtrl_of_swap (hen : pairEn d = true) (hst : pairState d = 4) (hline : d.pos.sysLine + 64 ≤ reg64 d (pairA 0x10C)) :
    pairCtrl d 0x80000000 = sendPair (setPair d { d.pair with
        swap := some (reg64 d (pairA 0x10C), 1, (d.pair.swapId + 1) % 2 ^ 32), swapId := (d.pair.swapId + 1) % 2 ^ 32 })
      [dpack [(60, 4, 8), (32, 3, 1), (0, 32, (d.pair.swapId + 1) % 2 ^ 32)], dpack [(0, 64, reg64 d (pairA 0x10C))]] := by
  refine Eq.trans (b := requestSwap d (reg64 d (pairA 0x10C)) 1) rfl ?_
  rw [requestSwap, if_pos (by simp [hen, hst, hline])]

theorem takeSwap_of_standby (hen : pairEn d = true) (hst : pairState d = 3) (ws : List Dword) : takeSwap d ws =
    setPair (pairHeard d) { (pairHeard d).pair with
      swap := some ((dwAt ws 1).toNat, dfld (dwAt ws 0) 34 32, dfld (dwAt ws 0) 31 0), swapId := dfld (dwAt ws 0) 31 0 } :=
  if_pos (by simp [hen, hst])

theorem takePairTime_of_request (hen : pairEn d = true) {ws : List Dword} (hkind : timeKind (pairHeard d) 4 ws = 1)
    (t : WireTime) : takePairTime d ws t = pdelayAnswer (pairHeard d) 4 ws t := by
  simp only [takePairTime, hen, Bool.not_true, Bool.false_eq_true, if_false, hkind]

theorem pairSync_of_active (h : pairActive d = true) : pairSync d =
    sendDelay { d with node := { d.node with syncSeq := (d.node.syncSeq + 1) % 65536 } } 4
      (timeW1 { d with node := { d.node with syncSeq := (d.node.syncSeq + 1) % 65536 } } 4 0 ((d.node.syncSeq + 1) % 65536) ::
        (timeWords (timeStamp { d with node := { d.node with syncSeq := (d.node.syncSeq + 1) % 65536 } }) ++ [0])) :=
  if_pos h

end

/-- Settles O12: each clause's hypotheses choose the branch of its command. -/
theorem pairingCommandsComplete : Obligations.PairingCommandsComplete := by
  intro s hup d m b
  refine ⟨fun t ht => ⟨?_, ?_⟩, fun t ht => ⟨?_, fun hside => ?_, fun hside => ?_⟩, fun x => ?_, fun nn seen _ => ?_,
    fun hen hon hdiff => ?_, fun k _ _ _ => ?_, fun ws hen => ?_, fun g hg => ?_, fun hen hok hst => ?_, fun ws _ => ?_,
    fun hen => ?_, fun _ _ => ?_, fun ws _ => ?_, fun hact => ?_, fun hen hst => ?_, fun hen hst hline => ?_,
    fun ws hen hst => ?_, fun line cause k _ _ _ _ => ?_, fun cause hen hst h0 h1 h3 => ?_, fun hstand => ?_,
    fun ws t hen hkind => ?_, fun hact => ?_, fun ws _ => ?_, fun _ => ?_, fun ws _ => ?_, fun ws _ => ?_,
    fun ws hen hstep hst => ?_, fun ws _ _ _ => ?_⟩
  · exact exec_of_runDev (fun d => claimEnds d m b true) rfl hup (claimEnds_of_act m b ht)
  · exact exec_of_runDev (fun d => claimEnds d m b false) rfl hup (claimEnds_of_free m b ht)
  · exact exec_of_runDev (fun d => claimConfirm d m b false) rfl hup (claimConfirm_of_free m b ht)
  · exact exec_of_runDev (fun d => claimConfirm d m b true) rfl hup (claimConfirm_of_side1 m b ht hside)
  · exact exec_of_runDev (fun d => claimConfirm d m b true) rfl hup (claimConfirm_of_side0 m b ht hside)
  · exact exec_of_runDev (fun d => okRises d x) rfl hup rfl
  · exact exec_of_runDev (fun d => pairBusPulse d m b nn seen) rfl hup rfl
  · exact exec_of_runDev encCheck rfl hup (encCheck_of_changed hen hon hdiff)
  · exact exec_of_runDev digestSend rfl hup rfl
  · exact exec_of_runDev (fun d => takeDigest d ws) rfl hup (takeDigest_of_paired hen ws)
  · exact exec_of_runDev digestLate rfl hup (digestLate_of_due hg)
  · exact exec_of_runDev (fun d => linkSilent d m b) rfl hup (linkSilent_of_well m b hen hok hst)
  · exact exec_of_runDev (fun d => takeHeartbeat d ws) rfl hup rfl
  · exact exec_of_runDev sendHeartbeat rfl hup (if_pos hen)
  · exact exec_of_runDev (fun d => gateTimeout d m b) rfl hup rfl
  · exact exec_of_runDev (fun d => takeReport d ws) rfl hup rfl
  · exact exec_of_runDev sendReport rfl hup (if_pos hact)
  · exact exec_of_runDev (fun d => okFalls d m) rfl hup (okFalls_of_standby m hen hst)
  · exact exec_of_runDev (fun d => pairCtrl d 0x80000000) rfl hup (pairCtrl_of_swap hen hst hline)
  · exact exec_of_runDev (fun d => takeSwap d ws) rfl hup (takeSwap_of_standby hen hst ws)
  · exact exec_of_runDev swapEffect rfl hup rfl
  · exact exec_of_runDev (fun d => joinEnds d m b cause) rfl hup (joinEnds_of_failed m b hen hst (by omega) (by omega) (by omega))
  · exact exec_of_runDev rejoin rfl hup (if_pos hstand)
  · exact exec_of_runDev (fun d => takePairTime d ws t) rfl hup (takePairTime_of_request hen hkind t)
  · exact exec_of_runDev pairSync rfl hup (pairSync_of_active hact)
  · exact exec_of_runMem (fun d m => takeMirror d m b ws) rfl hup rfl
  · exact exec_of_runMem (fun d m => mirrorNow d m b) rfl hup rfl
  · exact exec_of_runDev (fun d => takeMirrorAck d ws) rfl hup rfl
  · exact exec_of_runDev (fun d => takeForward d m b ws) rfl hup rfl
  · exact exec_of_runDev (fun d => takeJoin d m ws) rfl hup (takeJoin_of_position m hen hstep hst)
  · exact exec_of_upState (fun d m b => takeFragment d m b ws) rfl hup rfl

end Sys2Proof.Machine
end

/-! # Wicker, interrupt and snapshot commands complete (R544 to R570, R615, R616) -/

section
namespace Sys2Proof.Machine

/-- A part that runs takes a command of one that runs or sleeps. -/
theorem exec_of_wicker {i : Instr} {s : State} {e : Dev} (f : Dev → Dev)
    (hi : exec i s = anyDev s (fun d => if d.life = .up ∨ d.life = .asleep then f d else d)) (hup : s.dev.life = .up)
    (he : f s.dev = e) : exec i s = .next (s.withDev e) :=
  hi.trans (anyDev_of_eq ((if_pos (.inl hup)).trans he))

section
variable {d : Dev}

theorem routingWrite_of_matrix {o : Nat} {v : Word} (hcell : isCellCfg o = false)
    (hloop : wkrLoops (setReg d (wkrA o) (v &&& if 0xB00 ≤ o then 0x7F7F7F else 0xFFFFFFFF)) = false) :
    routingWrite d o v = setReg d (wkrA o) (v &&& if 0xB00 ≤ o then 0x7F7F7F else 0xFFFFFFFF) := by
  simp only [routingWrite, hcell, hloop, Bool.false_eq_true, false_and, if_false]

theorem routingWrite_of_cell {o : Nat} {v : Word} (hcell : isCellCfg o = true) (hsel : fld v 19 17 ≤ 4)
    (hloop : wkrLoops (setReg d (wkrA o) (v &&& 0x4FFFFF)) = false) :
    routingWrite d o v = { setReg d (wkrA o) (v &&& 0x4FFFFF) with wkr := { (setReg d (wkrA o) (v &&& 0x4FFFFF)).wkr with
      q := tset (setReg d (wkrA o) (v &&& 0x4FFFFF)).wkr.q ((o - 0xB00) / 16) (bitOf v 22) } } := by
  rw [routingWrite, if_neg (by simp [hsel])]
  simp only [hcell, if_true, hloop, Bool.false_eq_true, if_false]

/-- Every cell's CFG is a word of R558's check. -/
theorem isRouting_of_cell {o : Nat} (h : isCellCfg o = true) : (isRouting o && decide (o % 4 = 0)) = true := by
  simp only [isCellCfg, isRouting, Bool.and_eq_true, Bool.or_eq_true, decide_eq_true_eq] at h ⊢
  omega

theorem groupEdge_of_turned {g : Nat} {on off : Bool} (hused : rb d (wkrA (0xA80 + 8 * g)) 31 = true) (hedge : (on || off) = true)
    (hquiet : within10 d (tat d.wkr.groupAt g) = false) (hwas : rb d (wkrA 0x104) g = off) : groupEdge d g on off = pokeBit
      { d with wkr := { d.wkr with groupAt := tset d.wkr.groupAt g (some d.cycle) } } (wkrA 0x104) g !off := by
  rw [groupEdge, if_neg (by simp [hused, hedge]), if_neg (by simp [hquiet])]
  exact if_neg (by simp [hwas])

theorem cellEdge_of_ungated {nn : Nat} (hused : bitOf (cellCfg d nn) 16 = true) (hgroup : groupOn d nn = true)
    (hquiet : within10 d (tat d.wkr.cellAt nn) = false) :
    let i := fun k => row d (cellSel d nn k)
    cellEdge d nn = { d with wkr := { d.wkr with
      q := tset d.wkr.q nn (bitOf (cellCfg d nn) ((tat d.wkr.q nn).toNat * 8 + (i 2).toNat * 4 + (i 1).toNat * 2 + 1))
      cellAt := tset d.wkr.cellAt nn (some d.cycle) } } := by
  simp [cellEdge, hused, hgroup, hquiet]

theorem snapTrigger_of_free (b : Boot) (source : Nat) (h : snapBusy d = false) : snapTrigger d b source = snapTake d b source :=
  if_neg (by simp [h])

theorem snapshotEdge_of_free {m : Mem} {b : Boot} {slot : Nat} (hedge : (slotEdge d slot 0x021 (snapBusy d)).2 = true)
    (hfree : snapBusy (elapse (slotEdge d slot 0x021 (snapBusy d)).1 m b (d.cycle + 2)) = false) : snapshotEdge d m b slot =
      snapTake (elapse (slotEdge d slot 0x021 (snapBusy d)).1 m b (d.cycle + 2)) b 2 :=
  (if_pos hedge).trans (snapTrigger_of_free b 2 hfree)

theorem snapDone_of_last {b : Boot} (hbusy : snapBusy d = true)
    (hlast : (evt (pokeBit d (ra pgSnap 0x104) 31 false) pgSnap 0).health.snapWaits = false) :
    snapDone d b = evt (pokeBit d (ra pgSnap 0x104) 31 false) pgSnap 0 :=
  (if_pos hbusy).trans (if_neg (ne_true_of_eq_false hlast))

theorem interruptArrival_of_up {src : Nat} {level : Bool} (hup : d.life = .up) (hsrc : src < 192) :
    interruptArrival d src level = intcDeliver (senseSrc d src (srcLevel d src level)) := by
  rw [interruptArrival, hup]
  exact if_pos hsrc

theorem completeSrc_of_claimant {tt src : Nat} (hclaimed : srcClaimed d src = true) (htt : claimant d src = tt) :
    let again := decide (srcState d src = 3) ||
      (decide (srcState d src = 2) && decide (fld (srcCfg d src) 30 29 = 0) && rb d (srcA src) 28)
    let e := setSrc d src again.toNat
    let e := if tt < 4 then setStack e tt ((tat e.intc.stack tt).filter (fun x => decide (x.1 ≠ src)))
      else pokeBit e (ra pgIntcSt (0x900 + 4 * (src / 32))) (src % 32) false
    completeSrc d tt src = intcDeliver { e with intc := { e.intc with under := tset e.intc.under src none } } :=
  if_pos (by simp [hclaimed, htt])

end

/-- Settles O13: each clause's hypotheses choose the branch of its command. -/
theorem wickerCommandsComplete : Obligations.WickerCommandsComplete := by
  intro s hup d m b
  refine ⟨fun pp v hcode => ?_, fun off v hrouting hword hcell hloop => ?_, fun off v hcell hsel hloop => ?_,
    fun g on off hused hedge hquiet hwas => ?_, fun nn balls hused hgroup hquiet => ?_, fun slot hedge hfree => ?_,
    fun src level hsrc => ?_, fun tt src hclaimed htt => ?_, fun bits => ?_, fun bits => ?_, fun hfree => ?_,
    fun hbusy _ hlast => ?_⟩
  · exact exec_of_runDev (fun d => pselWrite d (0x180 + 4 * pp) v.toNat) rfl hup (if_pos hcode)
  · exact exec_of_runDev (fun d => if isRouting off && decide (off % 4 = 0) then routingWrite d off v else d) rfl hup
      ((if_pos (by simp [hrouting, hword])).trans (routingWrite_of_matrix hcell hloop))
  · exact exec_of_runDev (fun d => if isRouting off && decide (off % 4 = 0) then routingWrite d off v else d) rfl hup
      ((if_pos (isRouting_of_cell hcell)).trans (routingWrite_of_cell hcell hsel hloop))
  · exact exec_of_wicker (fun d => groupEdge d g on off) rfl hup (groupEdge_of_turned hused hedge hquiet hwas)
  · exact exec_of_wicker (fun d => cellEdge (setBalls d balls.toNat) nn) rfl hup (cellEdge_of_ungated hused hgroup hquiet)
  · exact exec_of_runDev (fun d => snapshotEdge d m b slot) rfl hup (snapshotEdge_of_free hedge hfree)
  · exact anyDev_of_eq (f := fun d => interruptArrival d src level) (interruptArrival_of_up hup hsrc)
  · exact exec_of_runDev (fun d => completeSrc d tt src) rfl hup (completeSrc_of_claimant hclaimed htt)
  · exact exec_of_runDev (fun d => swiSet d bits) rfl hup rfl
  · exact exec_of_runDev (fun d => swiClear d bits) rfl hup rfl
  · exact exec_of_runDev (fun d => snapTrigger d b 1) rfl hup (snapTrigger_of_free b 1 hfree)
  · exact exec_of_runDev (fun d => snapDone d b) rfl hup (snapDone_of_last hbusy hlast)

end Sys2Proof.Machine
end

/-! # Health commands complete (R65, R72 to R76, R582 to R614, R620) -/

section
namespace Sys2Proof.Machine

section
variable {d : Dev}

theorem isolateDie_of_free {k : Nat} (detail : Nat) (h : d.iso.contains k = false) : isolateDie d k detail =
    raise { d with iso := d.iso ++ [k], rods := d.rods.filter (fun r => decide (r.wale / 4 ≠ k)) } pgFlt 0x10 2 4 detail :=
  if_neg (ne_true_of_eq_false h)

theorem throttle_of_due {m : Mem} {b : Boot} {t : Nat} (h : throttleAt d = some t) :
    throttle d m b = riskSwap d (throttleEval (elapse d m b t)) := by
  rw [throttle, h]

theorem powerAverage_eq (k avg : Nat) :
    let e := { d with therm := { d.therm with power := tset d.therm.power k avg } }
    let e := if k = 5 then poke e (thermA 0x148) 15 0 avg else e
    powerAverage d k avg = (if powerLimit e k < avg then evt e pgTherm 7 else clearAtRisk e) := rfl

theorem shutdown_of_running (m : Mem) (code : Nat) (h : shuttingDown d = false) : shutdown d m code =
    stopPart (raiseOpen (evt (pokeBit { d with upd := { d.upd with sess := none } } (ra pgTherm 0x108) 27 true) pgTherm 6)
      pgTherm code 3 5) m :=
  if_neg (ne_true_of_eq_false h)

theorem ageBaseline_of_extended {m : Mem} {b : Boot} (k count : Nat) (h : b.extended = true) :
    ageBaseline d m b k count = (ageMeasure d k count, m) :=
  if_pos (by simp [h])

theorem ageBaseline_of_new {m : Mem} {b : Boot} (k count : Nat) (hext : b.extended = false)
    (hnew : (newest m .ageing).isSome = false) :
    let e := ageMeasure (if (tat d.health.floor0 k).isNone then poke d (avsA k 0x24) 15 0 count else d) k count
    let full := flashOpen e && (List.range 5).all (fun j => (tat e.health.floor0 j).isSome)
    ageBaseline d m b k count = (e, if full then writeCopy m .ageing 0 (ageBody (ageWords e) []) else m) := by
  intro e full
  rw [ageBaseline, if_neg (by simp [hext, hnew])]
  exact (apply_ite (Prod.mk e) _ _ _).symm

/-- The part, the calibration run of target `z` ended (R603). -/
def calEnded (d : Dev) (z : CalTarget) : Dev :=
  { d with health := { d.health with calRun := tset d.health.calRun (calKey z).1 none } }

theorem calDone_of_other {z : CalTarget} (r : EyeResult) (h : tat d.health.calRun (calKey z).1 = some (calKey z).2)
    (hcam : ∀ n l, z ≠ .cameraLane n l) (hfab : ∀ p l, z ≠ .fabricLane p l) (hdel : ∀ n, z ≠ .delayLine n) :
    calDone d z r = calStartAll (evt (if 16 ≤ r.width ∧ r.width ≤ 56 ∧ 40 ≤ r.height ∧ r.height ≤ 400 then calEnded d z
      else calFail (calEnded d z)) pgCal 0) := by
  cases z with
  | cameraLane n l => exact absurd rfl (hcam n l)
  | fabricLane p l => exact absurd rfl (hfab p l)
  | delayLine n => exact absurd rfl (hdel n)
  | _ => exact if_pos h

theorem correctedFault_of_class (cls : Fin 4) (loc : Nat) (inWale : Bool) :
    let e := match cls with
      | 1 => count d (ra (pgQdrCh (loc / 64 % 4)) 0x104)
      | 3 => countBy d (ra (pgLpxCh (lpxMap d loc).ch) 0x11C) 15 0 1
      | _ => d
    correctedFault d cls loc inWale = faultEvent e cls loc (faultLevel cls inWale) :=
  match cls with
  | 0 => rfl
  | 1 => rfl
  | 2 => rfl
  | 3 => rfl

theorem rowRemap_of_spare {k : Nat} (loc : Nat) (h : rf d (ra pgFlt (0x180 + 4 * k)) 15 0 ≠ 0) : rowRemap d k loc =
    poke d (ra pgFlt (0x180 + 4 * k)) 15 0 (rf d (ra pgFlt (0x180 + 4 * k)) 15 0 - 1) :=
  if_neg h

theorem errcDone_of_last {seq : Nat} (hcur : curValid d = true) (hseq : rf d (errcA (slotCur + 4)) 15 0 = seq)
    (hpre : preValid d = false) : errcDone d seq = setReg (clearSlot d slotCur) (errcA 0x108) 0 :=
  (if_pos (by simp [hcur, hseq])).trans (if_neg (ne_true_of_eq_false hpre))

end

/-- Settles O14: each clause's hypotheses choose the branch of its command. -/
theorem healthCommandsComplete : Obligations.HealthCommandsComplete := by
  intro s hup d m b
  refine ⟨?_, fun ctx w rand k colour => ?_, fun k detail hfree => ?_, fun detail => ?_, fun readings powers => ?_,
    fun t ht => ?_, fun k avg => ?_, fun hrun => ?_, fun hshut => ?_, fun k slack mv => ?_, fun k count hext => ?_,
    fun k count hext hnew => ?_, fun hon => ?_, fun classes => ?_,
    fun z r hrun => ⟨fun n l hz => ?_, fun p l hz => ?_, fun n hz => ?_, fun hcam hfab hdel => ?_⟩,
    fun mm => ?_, fun cls loc inWale => ?_, fun k loc hspare => ?_, ?_, fun seq hcur hseq hpre => ?_⟩
  · exact exec_of_runDev (fun d => rootLockLost d m b) rfl hup rfl
  · exact exec_of_runDev (fun d => weaverParity d ctx.toNat w rand k colour) rfl hup rfl
  · exact exec_of_runDev (fun d => isolateDie d k detail.toNat) rfl hup (isolateDie_of_free detail.toNat hfree)
  · exact exec_of_runDev (fun d => stopPart (raise d pgFlt 0x02 3 4 detail.toNat) m) rfl hup rfl
  · exact anyDev_of_eq (f := fun d => match d.life with
      | .up => senseRound d m readings powers
      | .held 2 => slathReadings d readings
      | _ => d) (by rw [hup]; rfl)
  · exact exec_of_runDev (fun d => throttle d m b) rfl hup (throttle_of_due ht)
  · exact exec_of_runDev (fun d => powerAverage d k avg) rfl hup (powerAverage_eq k avg)
  · exact exec_of_runDev (fun d => shutdown d m 0x04) rfl hup (shutdown_of_running m 0x04 hrun)
  · exact exec_of_runDev (fun d => if shuttingDown d then trip (takeErrors d b) else d) rfl hup (if_pos hshut)
  · exact exec_of_runDev (fun z => avsUpdate z k slack.toNat mv.toNat) rfl hup rfl
  · exact exec_of_runMem (fun z m => ageBaseline z m b k count.toNat) rfl hup (ageBaseline_of_extended k count.toNat hext)
  · exact exec_of_runMem (fun z m => ageBaseline z m b k count.toNat) rfl hup (ageBaseline_of_new k count.toNat hext hnew)
  · exact exec_of_runDev calCheck rfl hup (if_pos hon)
  · exact exec_of_runDev (fun d => calGo d classes.toNat) rfl hup rfl
  · subst hz
    exact exec_of_runDev (fun d => calDone d (.cameraLane n l) r) rfl hup (if_pos hrun)
  · subst hz
    exact exec_of_runDev (fun d => calDone d (.fabricLane p l) r) rfl hup (if_pos hrun)
  · subst hz
    exact exec_of_runDev (fun d => calDone d (.delayLine n) r) rfl hup (if_pos hrun)
  · exact exec_of_runDev (fun d => calDone d z r) rfl hup (calDone_of_other r hrun hcam hfab hdel)
  · exact exec_of_runDev (fun d => monCopy d mm) rfl hup rfl
  · exact exec_of_runDev (fun d => correctedFault d cls loc.toNat inWale) rfl hup (correctedFault_of_class cls loc.toNat inWale)
  · exact exec_of_runDev (fun d => rowRemap d k loc.toNat) rfl hup (rowRemap_of_spare loc.toNat hspare)
  · exact exec_of_runDev (fun d => takeErrors d b) rfl hup rfl
  · exact exec_of_runDev (fun d => errcDone d seq.toNat) rfl hup (errcDone_of_last hcur hseq hpre)

end Sys2Proof.Machine
end

/-! # Wakes, resets and a running part's image commands complete (R65, R575 to R577, R624, R642 to R646) -/

section
namespace Sys2Proof.Machine

section
variable {d : Dev} {m : Mem} {b : Boot}

theorem wakeEdge_of_rise {slot : Nat} (h : (slotEdge d slot 0x022 (targetBusy d 0x022)).2 = true) :
    wakeEdge d m slot = wakeFire (slotEdge d slot 0x022 (targetBusy d 0x022)).1 m 0 :=
  if_pos h

theorem timerWake_of_set (hasleep : d.life = .asleep) (h : reg d (pwrA 0x110) ≠ 0) : timerWake d m = wakeFire d m 2 :=
  if_pos ⟨hasleep, h⟩

theorem motionWake_of_chosen (h : rf d (pwrA 0x114) 19 16 ≠ 0) : motionWake d m = wakeFire d m 3 :=
  if_pos h

theorem comparatorOn_of_asleep (h : d.life = .asleep) : comparatorOn d = true := by
  rw [comparatorOn, h]

theorem railLost_of_new {rail : Nat} (h : b.railsLost.contains rail = false) :
    let c := { b with resets := b.resets + 1, dogAt := none, railsLost := rail :: b.railsLost }
    railLost d m b rail = ({ resetDev d c true 0 with life := .held 3 }, resetMem m, c) := by
  intro c
  rw [railLost]
  simp only [h, Bool.false_eq_true, if_false]
  rfl

theorem warmReset_of_released (cause : Nat) (h : d.life = .up ∨ d.life = .asleep ∨ d.life = .recovery ∨ d.life = .held 2) :
    warmReset d m b cause = resetPart d m b false cause := by
  obtain h | h | h | h := h
  · rw [warmReset, h]
  · rw [warmReset, h]
  · rw [warmReset, h]
  · exact warmReset_of_tripped m b cause h

theorem watchdog_of_first (hrun : d.restart = false) (hfirst : b.dogAt = none) :
    watchdog d m b = (beginRestart d, m, { b with dogAt := some d.cycle }) := by
  rw [watchdog, if_neg (ne_true_of_eq_false hrun), hfirst]

theorem ageTurn_of_running (hrun : d.restart = false) : ageTurn d m b =
    (d, ageAppend d m { b with ageRuns := b.ageRuns + 1 }, { b with ageRuns := b.ageRuns + 1 }) := by
  rw [ageTurn, hrun]
  rfl

theorem goodStart_of_confirmed {t : Nat} (hset : d.upd.settledAt = some t) (hrun : d.restart = false)
    (hconf : b.confirmed = true) (hfails : b.fails = 0) : goodStart d m b =
      ({ elapse d m b (t + 24000000000) with upd := { (elapse d m b (t + 24000000000)).upd with settledAt := none } }, m, b) := by
  rw [goodStart, hset]
  dsimp only
  rw [if_neg (ne_true_of_eq_false hrun), if_pos ⟨hconf, hfails⟩]

theorem microcodeChange_of_due (hdue : mcDue d = true) (hnew : d.paused.contains (d.pos.sysLine / 256) = false) :
    let e := pokeBit (setReg d (ra pgBoot 0x110) (BitVec.ofNat 32 d.upd.mcNew)) (ra pgBoot 0x100) 16 false
    microcodeChange d = unsync (setStatus
      { e with paused := (d.pos.sysLine / 256) :: d.paused, upd := { d.upd with mcGo := 0 } } .mcDone) := by
  intro e
  have hpaused : (setReg d (ra pgBoot 0x110) (BitVec.ofNat 32 d.upd.mcNew)).paused.contains (d.pos.sysLine / 256) = false := hnew
  rw [microcodeChange, if_neg (by simp [hdue])]
  simp only [hpaused, Bool.false_eq_true, if_false]
  rfl

end

/-- Settles O15: each clause's hypotheses choose the branch of its command. -/
theorem powerAndBootCommandsComplete : Obligations.PowerAndBootCommandsComplete := by
  refine ⟨fun s hasleep => ?_, fun s => ?_, fun s hup => ?_⟩
  · intro d m b
    refine ⟨fun slot hedge => ?_, ?_, fun hset => ?_, fun hset => ?_, ?_⟩
    · exact exec_of_anyState (fun d m b => if d.life = .up ∨ d.life = .asleep then wakeWith b (wakeEdge d m slot) else (d, m, b))
        rfl ((if_pos (.inr hasleep)).trans (congrArg (wakeWith b) (wakeEdge_of_rise hedge)))
    · exact exec_of_anyState (fun d m b => if d.life = .asleep then wakeWith b (wakeFire d m 1) else (d, m, b)) rfl (if_pos hasleep)
    · exact exec_of_anyState (fun d m b => if d.life = .asleep then wakeWith b (timerWake d m) else (d, m, b)) rfl
        ((if_pos hasleep).trans (congrArg (wakeWith b) (timerWake_of_set hasleep hset)))
    · exact exec_of_anyState (fun d m b => if d.life = .up ∨ d.life = .asleep then wakeWith b (motionWake d m) else (d, m, b))
        rfl ((if_pos (.inr hasleep)).trans (congrArg (wakeWith b) (motionWake_of_chosen hset)))
    · exact anyDev_of_eq (f := fun d => if comparatorOn d then trip d else d) (if_pos (comparatorOn_of_asleep hasleep))
  · intro d m b
    refine ⟨fun side testEn refOk twinOk twinAct => ?_, fun rail hrail => ?_, fun hlife => ?_, fun hheld hcool => ?_,
      fun hheld => ?_, fun hheld => ?_⟩
    · exact exec_of_anyState (fun d m b => powerOn d m b side testEn refOk twinOk twinAct) rfl rfl
    · exact exec_of_anyState (fun d m b => railLost d m b rail) rfl (railLost_of_new hrail)
    · exact exec_of_anyState (fun d m b => warmReset d m b 1) rfl (warmReset_of_released 1 hlife)
    · exact exec_of_anyState tripRelease rfl (if_pos ⟨hheld, hcool⟩)
    · exact exec_of_anyState rootLockBack rfl (if_pos hheld)
    · exact exec_of_anyState refRootBack rfl (if_pos hheld)
  · intro d m b
    refine ⟨fun hrun hfirst => ?_, fun hrun => ?_, fun t hset hrun hconf hfails => ?_, fun _ => ?_, fun hdue hnew => ?_⟩
    · exact exec_of_upState watchdog rfl hup (watchdog_of_first hrun hfirst)
    · exact exec_of_upState ageTurn rfl hup (ageTurn_of_running hrun)
    · exact exec_of_upState goodStart rfl hup (goodStart_of_confirmed hset hrun hconf hfails)
    · exact exec_of_upState (fun d m b => ((endRestart d m b).1, (endRestart d m b).2, b)) rfl hup rfl
    · exact exec_of_runDev microcodeChange rfl hup (microcodeChange_of_due hdue hnew)

end Sys2Proof.Machine
end

/-! # A session's operations complete (R636 to R650) -/

section
namespace Sys2Proof.Machine

/-! ### An operation that goes through -/

section
variable {d : Dev} {m : Mem} {b : Boot} {r : UpdRequest}

theorem served_pcie (hup : d.life = .up) : served d pcieReq.source.val = true := by
  simp [served, pcieReq, hup]

section
variable (hserved : served d r.source.val = true)
include hserved

theorem writeSess_of_owner (howns : owns d r = true) (hflash : flashRefusal d = none) (hlen : r.payload.length ≤ 1024)
    (hword : r.payload.length % 16 = 0) (hcrc : crc32c r.payload = r.crc.toNat) (hroom : r.offset + r.payload.length ≤ slotSize) :
    writeSess d m b r = (ownAnswer (touchSess d) r opWrite r.token.toNat .ok,
      flashProgram m (slotBase b.staging + r.offset) r.payload) := by
  have hflash' : flashRefusal (touchSess d) = none := hflash
  rw [writeSess, if_neg (by simp [hserved]), if_neg (by simp [howns]), stageBytes]
  rw [if_neg (by simp [hlen, hword, hcrc, hroom]), hflash']

theorem closeSess_of_sound (hup : d.life = .up) (howns : owns d r = true) (hflash : flashRefusal d = none)
    (hsound : stagedFault b (readImage m b.staging) = none) : closeSess d m b r =
      (ownAnswer (endSess d) r opClose r.token.toNat .ok, (saveBoot (endSess d) m b { b with staged := true }).1,
        (saveBoot (endSess d) m b { b with staged := true }).2) := by
  have hflash' : flashRefusal (endSess d) = none := hflash
  have hup' : (endSess d).life = .up := hup
  rw [closeSess, if_neg (by simp [hserved]), if_neg (by simp [howns])]
  dsimp only
  rw [hflash', hsound]
  rw [if_neg (by simp [hup'])]

theorem abortSess_of_owner (howns : owns d r = true) :
    abortSess d r = ownAnswer (endSess d) r opAbort r.token.toNat .ok := by
  rw [abortSess, if_neg (by simp [hserved]), if_neg (by simp [howns])]

theorem statusSess_of_free (h : d.upd.sess = none ∨ owns d r = true) :
    statusSess d r = answer (touchSess d) r opStatus r.token.toNat (shownStatus d) := by
  rw [statusSess, if_neg (by simp [hserved])]
  obtain h | h := h
  · exact if_neg (by simp [h])
  · exact if_neg (by simp [h])

theorem activateImage_of_staged (force : Bool) (hup : d.life = .up) (hrun : d.restart = false) (hflash : flashRefusal d = none)
    (hsess : d.upd.sess = none) (hconf : b.confirmed = true) (hstaged : b.staged = true) :
    activateImage d m b r force = activateStaged d m b r force := by
  rw [activateImage, if_neg (by simp [hserved, hup]), if_neg (by simp [hsess]), if_neg (by simp [hsess, hrun]), hflash]
  dsimp only
  rw [if_neg (by simp [hconf]), if_neg (by simp [hstaged])]

end

theorem timeoutSess_of_session {z : Session} (h : d.upd.sess = some z) :
    timeoutSess d m b = setStatus (endSess (passTo d m b (z.lastAt + 4000000000))) .timeout := by
  rw [timeoutSess, h]

theorem mcGoWrite_of_alone (halone : pairEn d = false) (hpend : mcPending d = true) (hwait : d.upd.mcGo ≠ 2) :
    mcGoWrite d = { d with upd := { d.upd with mcGo := 1, mcBlock := d.pos.sysLine / 256 + 1 } } := by
  rw [mcGoWrite, if_neg (by simp [hpend, hwait]), if_neg (by simp [halone])]

theorem freezeRecipe_of_open (hflash : flashRefusal d = none) : freezeRecipe d m =
    (if Store.frozen.size < 64 + (captureRecipe d m).length then (setStatus d .recipeTooLarge, m)
      else (setStatus d .ok, writeCopy m .frozen 0 (captureRecipe d m))) := by
  rw [freezeRecipe, hflash]

end

/-! ### A write of UPD_SESSION or UPD_CTRL -/

section
variable {d : Dev} (m : Mem) (b : Boot)

theorem sessionWrite_open : sessionWrite d m b 0x80000000 = openSess d m b pcieReq := by
  have h31 : bitOf 0x80000000 31 = true := by decide
  have h30 : bitOf 0x80000000 30 = false := by decide
  have h29 : bitOf 0x80000000 29 = false := by decide
  simp only [sessionWrite, h31, h30, h29, Bool.false_eq_true, if_true, if_false]

theorem sessionWrite_close : sessionWrite d m b 0x40000000 = closeSess d m b pcieReq := by
  have h31 : bitOf 0x40000000 31 = false := by decide
  have h30 : bitOf 0x40000000 30 = true := by decide
  have h29 : bitOf 0x40000000 29 = false := by decide
  simp only [sessionWrite, h31, h30, h29, Bool.false_eq_true, if_true, if_false]

theorem sessionWrite_abort : sessionWrite d m b 0x20000000 = (abortSess d pcieReq, m, b) := by
  have h31 : bitOf 0x20000000 31 = false := by decide
  have h30 : bitOf 0x20000000 30 = false := by decide
  have h29 : bitOf 0x20000000 29 = true := by decide
  simp only [sessionWrite, h31, h30, h29, Bool.false_eq_true, if_true, if_false]

section
variable (hup : d.life = .up) (hrun : d.restart = false)
include hup hrun

/-- The bits that stage and activate, with none of the others. -/
theorem ctrlWord_of_early {v : Word} (h29 : bitOf v 29 = false) (h28 : bitOf v 28 = false) (h27 : bitOf v 27 = false) :
    let p := if bitOf v 31 then programWindow d m b else (d, m)
    ctrlWord d m b v = if bitOf v 30 then activateImage p.1 p.2 b pcieReq (bitOf v 26) else (p.1, p.2, b) := by
  simp only [ctrlWord, hrun, hup, h29, h28, h27, Bool.false_eq_true, if_false, ne_eq, not_true_eq_false]
  exact ite_self _

/-- The other bits, where the write neither stages nor activates. -/
theorem ctrlWord_of_late {v : Word} (h31 : bitOf v 31 = false) (h30 : bitOf v 30 = false) :
    let e := if bitOf v 29 then mcGoWrite d else d
    let q := if bitOf v 28 then freezeRecipe e m else (e, m)
    let q := if bitOf v 27 then settingsWrite q.1 q.2 b else q
    ctrlWord d m b v = (q.1, q.2, b) := by
  simp only [ctrlWord, hrun, hup, h31, h30, Bool.false_eq_true, if_false, ne_eq, not_true_eq_false]

theorem ctrlWord_program : ctrlWord d m b 0x80000000 = ((programWindow d m b).1, (programWindow d m b).2, b) :=
  ctrlWord_of_early m b hup hrun (by decide) (by decide) (by decide)

theorem ctrlWord_activate (force : Bool) :
    ctrlWord d m b (if force then 0x44000000 else 0x40000000) = activateImage d m b pcieReq force := by
  cases force
  · exact ctrlWord_of_early m b hup hrun (by decide) (by decide) (by decide)
  · exact ctrlWord_of_early m b hup hrun (by decide) (by decide) (by decide)

theorem ctrlWord_mcGo : ctrlWord d m b 0x20000000 = (mcGoWrite d, m, b) :=
  ctrlWord_of_late m b hup hrun (by decide) (by decide)

theorem ctrlWord_freeze : ctrlWord d m b 0x10000000 = ((freezeRecipe d m).1, (freezeRecipe d m).2, b) :=
  ctrlWord_of_late m b hup hrun (by decide) (by decide)

theorem ctrlWord_settings : ctrlWord d m b 0x08000000 = ((settingsWrite d m b).1, (settingsWrite d m b).2, b) :=
  ctrlWord_of_late m b hup hrun (by decide) (by decide)

end

section
variable (hup : d.life = .up) (halone : pairEn d = false)
include hup halone

theorem hostWrite_session (v : Word) : hostWrite d m b (ra pgUpd 0x104) v = drainHeld (sessionWrite d m b v) := by
  rw [hostWrite_alone m b v hup halone (by decide) (by decide) (by decide)]
  rfl

theorem hostWrite_ctrl (v : Word) : hostWrite d m b (ra pgUpd 0x110) v = drainHeld (ctrlWord d m b v) := by
  rw [hostWrite_alone m b v hup halone (by decide) (by decide) (by decide)]
  rfl

end
end

section
variable {i : Instr} {s : State} {v : Word} {r : Dev × Mem × Boot} (hup : s.dev.life = .up) (halone : pairEn s.dev = false)
include hup halone

theorem exec_of_sessionRow (hi : exec i s = sessionRow s v) (hr : sessionWrite s.dev s.mem s.boot v = r) :
    exec i s = .next (s.put (drainHeld r)) :=
  exec_of_anyState _ hi ((hostWrite_session s.mem s.boot hup halone v).trans (congrArg drainHeld hr))

theorem exec_of_ctrlRow (hi : exec i s = ctrlRow s v) (hr : ctrlWord s.dev s.mem s.boot v = r) :
    exec i s = .next (s.put (drainHeld r)) :=
  exec_of_anyState _ hi ((hostWrite_ctrl s.mem s.boot hup halone v).trans (congrArg drainHeld hr))

end

/-- Settles O16: each clause's hypotheses choose the branch of its operation, given by a message or by a register. -/
theorem updateCommandsComplete : Obligations.UpdateCommandsComplete := by
  intro s hup hrun halone hflash d m b
  refine ⟨fun r hserved hmessage => ⟨fun hsess => ?_, fun howns => ⟨fun hlen hword hcrc hroom => ?_, fun hsound => ?_, ?_⟩,
    fun hfree => ?_, fun force hsess hconf hstaged => ?_⟩, fun hsess => ⟨?_, fun force hconf hstaged => ?_⟩,
    fun howns => ⟨?_, ?_, ?_⟩, fun z hz => ?_, fun hpend hwait => ?_, ?_, fun c hc hmin hmax => ?_⟩
  · exact exec_of_anyState (fun d m b => openSess d m b r) (exec_updOpen_message hmessage s) rfl
  · rw [exec_updWrite_message hmessage, anyMem, writeSess_of_owner hserved howns hflash hlen hword hcrc hroom]
  · exact exec_of_anyState (fun d m b => closeSess d m b r) (exec_close_message hmessage s)
      (closeSess_of_sound hserved hup howns hflash hsound)
  · exact (exec_abort_message hmessage s).trans (anyDev_of_eq (abortSess_of_owner hserved howns))
  · exact (exec_status_message hmessage s).trans (anyDev_of_eq (statusSess_of_free hserved hfree))
  · exact exec_of_anyState (fun d m b => activateImage d m b r force) (exec_activate_message hmessage s force)
      (activateImage_of_staged hserved force hup hrun hflash hsess hconf hstaged)
  · exact exec_of_sessionRow hup halone rfl (sessionWrite_open m b)
  · exact exec_of_ctrlRow hup halone rfl ((ctrlWord_activate m b hup hrun force).trans
      (activateImage_of_staged (served_pcie hup) force hup hrun hflash hsess hconf hstaged))
  · exact exec_of_ctrlRow hup halone rfl (ctrlWord_program m b hup hrun)
  · exact exec_of_sessionRow hup halone rfl (sessionWrite_close m b)
  · exact exec_of_sessionRow hup halone rfl ((sessionWrite_abort m b).trans
      (congrArg (fun e => (e, m, b)) (abortSess_of_owner (served_pcie hup) howns)))
  · exact anyDev_of_eq (f := fun d => if d.life = .up ∨ d.life = .recovery then timeoutSess d m b else d)
      ((if_pos (.inl hup)).trans (timeoutSess_of_session hz))
  · exact exec_of_ctrlRow hup halone rfl ((ctrlWord_mcGo m b hup hrun).trans
      (congrArg (fun e => (e, m, b)) (mcGoWrite_of_alone halone hpend hwait)))
  · refine exec_of_ctrlRow hup halone rfl ((ctrlWord_freeze m b hup hrun).trans ?_)
    rw [freezeRecipe_of_open hflash]
    exact apply_ite (fun q : Dev × Mem => (q.1, q.2, b)) _ _ _
  · exact exec_of_ctrlRow hup halone rfl (ctrlWord_settings m b hup hrun)

end Sys2Proof.Machine
end

/-! # Host writes with a row of their own complete (R657 to R668) -/

section
namespace Sys2Proof.Machine

/-! ### Bits that a row sets in what it writes -/

theorem bitOf_or (v w : Word) (i : Nat) : bitOf (v ||| w) i = (bitOf v i || bitOf w i) := BitVec.getLsbD_or

theorem bitOf_or_of_right {v w : Word} {i : Nat} (h : bitOf w i = true) : bitOf (v ||| w) i = true := by
  rw [bitOf_or, h, Bool.or_true]

/-- What a row that gates a rand writes: EN, and no SRST (R658). -/
theorem bitOf_powerWord (w : Word) (en : Bool) : bitOf ((w &&& 0x80000000) ||| BitVec.ofNat 32 en.toNat) 30 = false ∧
    bitOf ((w &&& 0x80000000) ||| BitVec.ofNat 32 en.toNat) 0 = en := by
  cases en
  · simp [bitOf]
  · simp [bitOf]

/-! ### The header of a page -/

section
variable {d : Dev} {m : Mem} {b : Boot} {pg : Nat}

theorem headerWrite_arm (v : Word) (hshadow : isShadowPage pg = true) (hfree : (armOf d pg).armed = false)
    (hstay : bitOf v 29 = false) : headerWrite d m b pg 0x028 (v ||| 0x40000000) =
      armPage (storeReg d (ra pg 0x028) (v ||| 0x40000000)) m b pg := by
  have harm : (bitOf (v ||| 0x40000000) 30 && !bitOf (v ||| 0x40000000) 29) = true := by
    rw [bitOf_or, bitOf_or, hstay, show bitOf 0x40000000 30 = true from by decide, show bitOf 0x40000000 29 = false from by decide]
    simp
  simp only [headerWrite, hshadow, commitModeWrite, hfree, harm]
  simp

theorem headerWrite_disarm (v : Word) (hshadow : isShadowPage pg = true) (harmed : (armOf d pg).armed = true) :
    headerWrite d m b pg 0x028 (v ||| 0x20000000) = disarm d pg := by
  have hdisarm : bitOf (v ||| 0x20000000) 29 = true := bitOf_or_of_right (by decide)
  simp only [headerWrite, hshadow, commitModeWrite, harmed, hdisarm]
  simp

theorem srstPage_of_idle {p : PageInfo} (hpg : pageInfo pg = some p) (hblock : ownEnables pg ≠ [])
    (hidle : (ownEnables pg).any (fun x => rb d (ra pg x.1) x.2 ||
      (decide (shadowMask (ra pg x.1) ≠ 0) && bitOf (inForce d (ra pg x.1)) x.2)) = false) :
    srstPage d m b pg = softReset d m b pg p := by
  rw [srstPage, hpg]
  dsimp only
  rw [if_neg (by simpa using hblock), if_neg (ne_true_of_eq_false hidle)]

theorem headerWrite_srst (v : Word) (hreset : bitOf v 30 = true) : headerWrite d m b pg 0x008 v =
    srstPage (randPower (storeReg d (ra pg 0x008) v) pg (bitOf v 0)) m b pg :=
  (if_pos rfl).trans (if_pos hreset)

theorem headerWrite_power (v : Word) (hrand : isRandPage pg = true) (hkeep : bitOf v 30 = false) :
    headerWrite d m b pg 0x008 v = pokeBit (storeReg d (ra pg 0x008) v) (ra pg 0x008) 0 (bitOf v 0) :=
  (if_pos rfl).trans ((if_neg (ne_true_of_eq_false hkeep)).trans (if_pos hrand))

/-! ### The pages' own rules -/

theorem pageWrite_commit (v : Word) (hgo : bitOf v 31 = true) : pageWrite d m b pgDev 0x104 v = (commitNow d m b, m) := by
  have hplain : isBound (ra pgDev 0x104) = false := by decide
  rw [pageWrite]
  simp only [hplain, hgo, Bool.false_eq_true, if_false, if_true]

theorem pageWrite_align (v : Word) (hgo : bitOf v 31 = true) :
    pageWrite d m b (pgEnc 0) 0x180 v = (alignAll (storeReg d (ra (pgEnc 0) 0x180) v), m) := by
  have hplain : isBound (ra (pgEnc 0) 0x180) = false := by decide
  simp only [pageWrite, hplain, alignWrite, hgo, Bool.false_eq_true, if_false, if_true]
  simp [pgEnc, pgDev]

theorem pageWrite_flush (v : Word) (hgo : bitOf v 30 = true) :
    pageWrite d m b pgTrk 0x100 v = (flushAll m (storeReg d (ra pgTrk 0x100) v), m) := by
  rw [pageWrite_trk d m b v (by decide)]
  simp only [trkWrite, hgo, if_true]

/-- The handle in a write of TRK_PEEK. -/
theorem fld_peekWord {h : Nat} (hh : h < 2097152) : fld (BitVec.ofNat 32 (h % 2097152) ||| 0x80000000) 20 0 = h := by
  refine Nat.eq_of_testBit_eq fun j => ?_
  rw [fld_testBit, BitVec.getLsbD_or, BitVec.getLsbD_ofNat, Nat.mod_eq_of_lt hh]
  by_cases hj : j < 21
  · have hlow : ∀ k < 21, BitVec.getLsbD (0x80000000 : Word) k = false := by decide
    simp only [Nat.zero_add, hlow j hj, show j < 32 by omega, show j < 20 + 1 - 0 by omega, decide_true, Bool.true_and, Bool.or_false]
  · have hhigh : h.testBit j = false := Nat.testBit_lt_two_pow
      (Nat.lt_of_lt_of_le hh (Nat.pow_le_pow_right (n := 2) (by decide) (by omega : 21 ≤ j)))
    simp only [hhigh, show ¬ j < 20 + 1 - 0 by omega, decide_false, Bool.false_and]

theorem pageWrite_peek {h : Nat} (hh : h < 2097152) :
    pageWrite d m b pgTrk 0x180 (BitVec.ofNat 32 (h % 2097152) ||| 0x80000000) = (peekCoil d h, m) := by
  have hgo : bitOf (BitVec.ofNat 32 (h % 2097152) ||| 0x80000000) 31 = true := bitOf_or_of_right (by decide)
  rw [pageWrite_trk d m b _ (by decide)]
  simp only [trkWrite, hgo, if_true, fld_peekWord hh]
  simp

/-- A write of LPX_PASR that asks for self-refresh where it is not in force, or for its end where it is (R428). -/
theorem pageWrite_selfRefresh {enter : Bool} (hwas : rb d (ra pgLpx 0x158) 8 = !enter)
    (hfree : srRefused (poke d (ra pgLpx 0x158) 7 0 (rf d (ra pgLpx 0x158) 7 0)) = false) :
    let e := poke d (ra pgLpx 0x158) 7 0 (rf d (ra pgLpx 0x158) 7 0)
    let z := selfRefresh (pokeBit e (ra pgLpx 0x158) 8 enter) enter
    pageWrite d m b pgLpx 0x158 (putBit (reg d (ra pgLpx 0x158)) 8 enter) =
      (z, if rb e (ra (pgLpxCh 0) 0x100) 27 && !enter then loseSegments z m else m) := by
  intro e z
  have hplain : isBound (ra pgLpx 0x158) = false := by decide
  have hask : bitOf (putBit (reg d (ra pgLpx 0x158)) 8 enter) 8 = enter := bitOf_putBit _ 8 8 enter (by decide)
  have hkeep : fld (putBit (reg d (ra pgLpx 0x158)) 8 enter) 7 0 = rf d (ra pgLpx 0x158) 7 0 :=
    fld_putBit_apart _ 8 enter 7 0 (by decide) (by decide)
  have hnew : enter ≠ rb e (ra pgLpx 0x158) 8 := by
    rw [rb_poke_apart d _ 7 0 _ 8 (by decide) (by decide), hwas]
    cases enter
    · decide
    · decide
  have hpasr : pageWrite d m b pgLpx 0x158 (putBit (reg d (ra pgLpx 0x158)) 8 enter) =
      pasrWrite d m (putBit (reg d (ra pgLpx 0x158)) 8 enter) := by
    simp only [pageWrite, hplain, Bool.false_eq_true, if_false]
    simp [laneOf_of_page, lpxWrite, pgHif, pgBorder, pgTrk, pgDev, pgEnc, pgLpx, pgHist]
  rw [hpasr, pasrWrite, hask, hkeep]
  exact (if_neg hnew).trans (if_neg (ne_true_of_eq_false hfree))

theorem pageWrite_switch (v : Word) (hgo : bitOf v 31 = true) (hhost : rb d (ra pgFab 0x100) 28 = true) :
    pageWrite d m b pgFab 0x158 v = (switchTables d, m) := by
  rw [pageWrite_fab d m b v (by decide)]
  simp only [fabWrite, hgo, hhost]
  simp

theorem pageWrite_epochGo (v : Word) :
    pageWrite d m b pgFab 0x13C (v ||| 0x80000000) = (epochGo (storeReg d (ra pgFab 0x13C) (v ||| 0x80000000)) m, m) := by
  have hgo : bitOf (v ||| 0x80000000) 31 = true := bitOf_or_of_right (by decide)
  rw [pageWrite_fab d m b _ (by decide)]
  simp only [fabWrite, hgo]
  simp

theorem epochGo_of_master {m : Mem} (hfree : rb d epochStatA 31 = false)
    (hline : d.pos.sysLine + rf d (ra pgFab 0x12C) 15 0 ≤ reg64 d (ra pgFab 0x134)) (hid : (reg d (ra pgFab 0x130)).toNat ≠ 0)
    (hmaster : isMaster d = true) (hown : remoteRef d = false) :
    let p : EpochPrep := { id := (reg d (ra pgFab 0x130)).toNat, line := reg64 d (ra pgFab 0x134), flags := rf d (ra pgFab 0x13C) 2 0 }
    let z := pokeBit d epochStatA 31 true
    let z := { z with node := { z.node with own := some p, prep := some p, votes := [(myId z, epochVote z m p)] } }
    epochGo d m = originate z 2 none [dpack [(60, 4, 2), (55, 3, p.flags), (0, 32, p.id)], dpack [(0, 64, p.line)]] :=
  if_neg (by simp [hfree, hline, hid, hmaster, hown])

theorem reqDeepSleep_of_free (hfree : sleepRefused d = none) (hquiet : wakeWanted (elapse d m b (d.cycle + 1)) = 0) :
    reqDeepSleep d m b = enterSleep (elapse d m b (d.cycle + 1)) := by
  rw [reqDeepSleep, hfree]
  exact if_pos hquiet

theorem commitPage_of_reached (harmed : (armOf d pg).armed = true) (hline : (armOf d pg).mode = 1)
    (hreached : (armOf d pg).pos ≤ d.pos.sysLine) : commitPage d m b pg = settle m b (commitReached m [armOf d pg] d) :=
  if_pos (by simp [harmed, hline, hreached])

end

/-! ### From a row to its page -/

section
variable {i : Instr} {s : State} {pg o : Nat} {v : Word} (hup : s.dev.life = .up) (halone : pairEn s.dev = false)
include hup halone

theorem exec_of_headerRow {e : Dev} (hi : exec i s = hostRow s (ra pg o) v) (hpg : (pageInfo pg).isSome = true)
    (hword : o % 4 = 0 ∧ o < 0x100) (he : headerWrite s.dev s.mem s.boot pg o v = e) :
    exec i s = .next (s.put (drainHeld (e, s.mem, s.boot))) := by
  obtain ⟨haligned, hlow⟩ := hword
  exact exec_of_hostRow hi (by
    rw [hostWrite_header s.mem s.boot v hup halone hpg haligned (by omega) hlow, he])

theorem exec_of_pageWrite {e : Dev} {n : Mem} (hi : exec i s = hostRow s (ra pg o) v) (hpg : (pageInfo pg).isSome = true)
    (hword : o % 4 = 0 ∧ 0x100 ≤ o ∧ o < 4096) (hupd : pg ≠ pgUpd) (hq : pageWrite s.dev s.mem s.boot pg o v = (e, n)) :
    exec i s = .next (s.put (drainHeld (e, n, s.boot))) := by
  obtain ⟨haligned, hhigh, ho⟩ := hword
  exact exec_of_hostRow hi (by
    rw [hostWrite_page s.mem s.boot v hup halone hpg haligned ho hupd hhigh, hq])

end

/-- Settles O17: each row is a write that reaches its page, where the clause's hypotheses choose the rule. -/
theorem hostWriteCommandsComplete : Obligations.HostWriteCommandsComplete := by
  intro s hup halone d m b done
  refine ⟨?_, fun pg v hpg hshadow hfree hstay => ?_, fun pg hpg hshadow harmed => ?_, fun pg harmed hline hreached => ?_,
    fun pg p hpg hblock hidle => ?_, fun pg en hpg hrand => ?_, fun x hgo => ?_, fun v hroom => ?_, fun r v hhost hroom => ?_,
    ?_, ?_, fun h hh => ?_, fun hi => ?_, fun enter hwas hfree => ?_, fun hhost => ?_,
    fun v hfree hline hid hmaster hown => ?_, fun hidle => ?_, fun hrun hfree => ?_, fun hfree hquiet => ?_⟩
  · exact exec_of_pageWrite hup halone rfl (by decide) (by decide) (by decide) (pageWrite_commit 0x80000000 (by decide))
  · exact exec_of_headerRow hup halone rfl hpg (by decide) (headerWrite_arm v hshadow hfree hstay)
  · exact exec_of_headerRow hup halone rfl hpg (by decide) (headerWrite_disarm _ hshadow harmed)
  · exact exec_of_runDev (fun d => commitPage d m b pg) rfl hup (commitPage_of_reached harmed hline hreached)
  · exact exec_of_headerRow hup halone rfl (by rw [hpg]; rfl) (by decide)
      ((headerWrite_srst _ (bitOf_or_of_right (by decide))).trans
        (srstPage_of_idle hpg hblock hidle))
  · obtain ⟨hkeep, hen⟩ := bitOf_powerWord (reg d (ra pg 0x008)) en
    exact exec_of_headerRow hup halone rfl hpg (by decide) ((headerWrite_power _ hrand hkeep).trans (congrArg _ hen))
  · exact exec_of_anyState (fun d m b => hostAccess d m b x) rfl (hostAccess_up m b hup hgo)
  · exact exec_of_pageWrite hup halone rfl (by decide) (by decide) (by decide)
      ((pageWrite_prod d m b v).trans (congrArg (·, m) (if_neg (Nat.not_lt.mpr hroom))))
  · have hother : ¬ r.val = 3 := fun h => hhost (Fin.ext h)
    have hword : (0x100 + 0x40 * r.val + 16) % 4 = 0 ∧ 0x100 ≤ 0x100 + 0x40 * r.val + 16 ∧ 0x100 + 0x40 * r.val + 16 < 4096 := by
      omega
    exact exec_of_pageWrite hup halone rfl (by decide) hword (by decide)
      ((pageWrite_cons d m b r v).trans (congrArg (·, m) ((if_neg hother).trans (if_neg (Nat.not_lt.mpr hroom)))))
  · exact exec_of_pageWrite hup halone rfl (by decide) (by decide) (by decide) (pageWrite_align _
      (bitOf_or_of_right (by decide)))
  · dsimp only [done, d, m, b]
    exact exec_of_pageWrite hup halone rfl (by decide) (by decide) (by decide) (pageWrite_flush _ (bitOf_or_of_right (by decide)))
  · exact exec_of_pageWrite hup halone rfl (by decide) (by decide) (by decide) (pageWrite_peek hh)
  · exact exec_of_pageWrite hup halone rfl (by decide) (by decide) (by decide) (pageWrite_verdict d m b hi)
  · exact exec_of_pageWrite hup halone rfl (by decide) (by decide) (by decide) (pageWrite_selfRefresh hwas hfree)
  · exact exec_of_pageWrite hup halone rfl (by decide) (by decide) (by decide) (pageWrite_switch _ (by decide) hhost)
  · exact exec_of_pageWrite hup halone rfl (by decide) (by decide) (by decide)
      ((pageWrite_epochGo v).trans (congrArg (·, m) (epochGo_of_master hfree hline hid hmaster hown)))
  · exact exec_of_pageWrite hup halone rfl (by decide) (by decide) (by decide)
      ((pageWrite_req d m b 0).trans (congrArg (·, m) (if_pos hidle)))
  · exact exec_of_pageWrite hup halone rfl (by decide) (by decide) (by decide)
      ((pageWrite_req d m b 1).trans (congrArg (·, m) ((if_pos hrun).trans (if_neg (ne_true_of_eq_false hfree)))))
  · exact exec_of_pageWrite hup halone rfl (by decide) (by decide) (by decide)
      ((pageWrite_req d m b 2).trans (congrArg (·, m) (reqDeepSleep_of_free hfree hquiet)))

end Sys2Proof.Machine
end
